-- ==== Sys2Proof/Word.lean ====
section
/-! DEFINITION. The words of the core: bytes, 11-bit raw channel values, and the two widths the spec fixes for the
channel codec (00_scope.md R13). -/

namespace Sys2Proof

/-- `u8`, one byte on the wire or in `rx_buf` (00_scope.md section 6; bit 7 is the most significant). -/
abbrev Byte := BitVec 8

/-- One 11-bit raw channel value (R30: domain [0, 2047]). -/
abbrev Raw := BitVec 11

/-- `N_CH` of R13. -/
abbrev nCh : Nat := 16

/-- `CH_PAYLOAD` of R13: ceil(16 * 11 / 8). -/
abbrev chPayload : Nat := 22

end Sys2Proof
end

