-- ==== Sys2Proof/Machine/Records.lean ====
section
/-! DEFINITION. The decoded-record registers' contents (10_state.md R30 to R33, R41 to R43). Sensor fields are integers:
the spec never masks or shifts them, and an encoder's operand may lie outside its field's range (R168). The range of each
field is `inRange`, which the registers keep (log entry 21). -/

namespace Sys2Proof.Machine

/-- `u8`, `u16`, `u24`, `u32`: an unsigned integer of `n` bytes (00_scope.md section 6). -/
def fitsU (n : Nat) (v : Int) : Bool := decide (0 ≤ v) && decide (v < 256 ^ n)

/-- `i8`, `i16`, `i32`: a two's-complement integer of `n` bytes (00_scope.md section 6). -/
def fitsI (n : Nat) (v : Int) : Bool := decide (-(256 ^ n / 2) ≤ v) && decide (v < 256 ^ n / 2)

/-- The range of an `n`-byte field of the given signedness (R168). -/
def fits (n : Nat) (signed : Bool) (v : Int) : Bool := if signed then fitsI n v else fitsU n v

/-- The Channel Set `ch_raw[0 .. 15]` (R30): sixteen 11-bit values, written as a whole. -/
abbrev ChannelSet := Vector Raw nCh

/-- `ls`, Link Statistics (R32), fields in wire order. -/
structure LinkStats where
  upRssi1 : Int
  upRssi2 : Int
  upLq : Int
  upSnr : Int
  antenna : Int
  rfMode : Int
  txPower : Int
  dnRssi : Int
  dnLq : Int
  dnSnr : Int
  deriving DecidableEq, Repr, Inhabited

/-- The field types of R32: all `u8`, the two SNR fields `i8`. -/
def LinkStats.inRange (r : LinkStats) : Bool :=
  fitsU 1 r.upRssi1 && fitsU 1 r.upRssi2 && fitsU 1 r.upLq && fitsI 1 r.upSnr && fitsU 1 r.antenna &&
  fitsU 1 r.rfMode && fitsU 1 r.txPower && fitsU 1 r.dnRssi && fitsU 1 r.dnLq && fitsI 1 r.dnSnr

/-- `gps` (R33), fields in wire order. `altitude` is the wire value, metres + 1000 (D19). -/
structure Gps where
  lat : Int
  lon : Int
  groundspeed : Int
  heading : Int
  altitude : Int
  satellites : Int
  deriving DecidableEq, Repr, Inhabited

/-- The field types of R33. -/
def Gps.inRange (r : Gps) : Bool :=
  fitsI 4 r.lat && fitsI 4 r.lon && fitsU 2 r.groundspeed && fitsU 2 r.heading && fitsU 2 r.altitude &&
  fitsU 1 r.satellites

/-- `bat`, Battery (R41), fields in wire order. -/
structure Battery where
  voltage : Int
  current : Int
  capacity : Int
  remaining : Int
  deriving DecidableEq, Repr, Inhabited

/-- The field types of R41: u16, u16, u24, u8. -/
def Battery.inRange (r : Battery) : Bool :=
  fitsU 2 r.voltage && fitsU 2 r.current && fitsU 3 r.capacity && fitsU 1 r.remaining

/-- `att`, Attitude (R42), fields in wire order. -/
structure Attitude where
  pitch : Int
  roll : Int
  yaw : Int
  deriving DecidableEq, Repr, Inhabited

/-- The field types of R42: i16 each. -/
def Attitude.inRange (r : Attitude) : Bool := fitsI 2 r.pitch && fitsI 2 r.roll && fitsI 2 r.yaw

/-- `sens[t]` (R43): the values of the head fields of `SENSOR_LAYOUT[t]` in the layout's order, then the elements of its
slot array (empty where the layout has none). A field's name is the layout's at the same position (log entry 18). -/
structure SensorRec where
  head : List Int
  slots : List Int
  deriving DecidableEq, Repr, Inhabited

end Sys2Proof.Machine
end

