-- ==== Sys2Proof/Config.lean ====
section
/-! DEFINITION. The implementation parameters of 00_scope.md section 4 (R7 to R19), fixed at construction, as one record
(its reference values are in Machine/Reference.lean); and the free values: constants without a body for what the spec
leaves unspecified. -/

namespace Sys2Proof

/-- The six sensor types whose layout is configuration (R17). -/
inductive SensorId where
  | vario
  | baro
  | airspeed
  | rpm
  | temp
  | cells
  deriving DecidableEq, Repr

/-- One thing for each of the six sensor types of R17. -/
structure PerSensor (α : Type) where
  vario : α
  baro : α
  airspeed : α
  rpm : α
  temp : α
  cells : α
  deriving DecidableEq, Repr

def PerSensor.get {α : Type} (p : PerSensor α) : SensorId → α
  | .vario => p.vario
  | .baro => p.baro
  | .airspeed => p.airspeed
  | .rpm => p.rpm
  | .temp => p.temp
  | .cells => p.cells

def PerSensor.set {α : Type} (p : PerSensor α) (x : SensorId) (v : α) : PerSensor α :=
  match x with
  | .vario => { p with vario := v }
  | .baro => { p with baro := v }
  | .airspeed => { p with airspeed := v }
  | .rpm => { p with rpm := v }
  | .temp => { p with temp := v }
  | .cells => { p with cells := v }

/-- The same thing for all six. -/
def PerSensor.all {α : Type} (v : α) : PerSensor α := ⟨v, v, v, v, v, v⟩

/-- A head field `(name, n, signed)` of a layout descriptor (R81). -/
structure Field where
  name : String
  width : Nat
  signed : Bool
  deriving DecidableEq, Repr

/-- The slot array `(name, n, signed, max_count)` of a layout descriptor (R81). -/
structure SlotArray where
  name : String
  width : Nat
  signed : Bool
  maxCount : Nat
  deriving DecidableEq, Repr

/-- A layout descriptor (R81): head fields back to back from payload offset 0, then an optional slot array. -/
structure Layout where
  head : List Field
  slots : Option SlotArray
  deriving DecidableEq, Repr

/-- The size of a layout (R81): the sum of the head widths; the slot array may be empty. -/
def Layout.size (d : Layout) : Nat := (d.head.map Field.width).sum

/-- `OVERFLOW_CHECK` (R18). This hardware is `beforeEval`; `afterEval` is the named alternative (C6, D5; log entry 10). -/
inductive OverflowCheck where
  | beforeEval
  | afterEval
  deriving DecidableEq, Repr

/-- The configuration record (R7 to R18). -/
structure Config where
  /-- `RX_CAP` (R7) -/
  rxCap : Nat
  /-- `MAX_FRAME_SIZE` (R8) -/
  maxFrameSize : Nat
  /-- `IDLE_TIMEOUT` (R9) -/
  idleTimeout : Nat
  /-- `LINK_TIMEOUT` (R10) -/
  linkTimeout : Nat
  /-- `ADDR_FILTER` (R11, OPEN) -/
  addrFilter : Bool
  /-- `OWN_ADDR` (R11, OPEN) -/
  ownAddr : Byte
  /-- `SEND_REQUIRES_LINK_UP` (R12, OPEN) -/
  sendRequiresLinkUp : Bool
  /-- `TIME_W` (R14) -/
  timeW : Nat
  /-- `TYPE_CH` (R16) -/
  typeCh : Byte
  /-- `TYPE_LS` (R16) -/
  typeLs : Byte
  /-- `TYPE_GPS` (R16) -/
  typeGps : Byte
  /-- `TYPE_BAT` (R16) -/
  typeBat : Byte
  /-- `TYPE_ATT` (R16) -/
  typeAtt : Byte
  /-- `TYPE_VARIO` .. `TYPE_CELLS` (R16) -/
  typeSensor : PerSensor Byte
  /-- `SENSOR_LAYOUT[t]` (R17) -/
  sensorLayout : PerSensor (Option Layout)
  /-- `OVERFLOW_CHECK` (R18) -/
  overflowCheck : OverflowCheck
  deriving DecidableEq, Repr

/-- All eleven type codes (R16). -/
def Config.typeCodes (c : Config) : List Byte :=
  [c.typeCh, c.typeLs, c.typeGps, c.typeBat, c.typeAtt, c.typeSensor.vario, c.typeSensor.baro, c.typeSensor.airspeed,
   c.typeSensor.rpm, c.typeSensor.temp, c.typeSensor.cells]

/-- Free value, DESIGN CHOICE, safe (log entry 9): what the `k`-th host read of `ch_raw` gives before its first decode (R34, I9). -/
opaque Config.unwrittenChRaw : Nat → Machine.ChannelSet

/-- Free value, DESIGN CHOICE, safe (log entry 9): the same for `ls`. -/
opaque Config.unwrittenLs : Nat → Machine.LinkStats

/-- Free value, DESIGN CHOICE, safe (log entry 9): the same for `gps`. -/
opaque Config.unwrittenGps : Nat → Machine.Gps

/-- Free value, DESIGN CHOICE, safe (log entry 9): the same for `bat`. -/
opaque Config.unwrittenBat : Nat → Machine.Battery

/-- Free value, DESIGN CHOICE, safe (log entry 9): the same for `att`. -/
opaque Config.unwrittenAtt : Nat → Machine.Attitude

/-- Free value, DESIGN CHOICE, safe (log entry 9): the same for `sens[x]`, also where `SENSOR_LAYOUT[x]` is `none`. -/
opaque Config.unwrittenSens : SensorId → Nat → Machine.SensorRec

/-- Free value, DESIGN CHOICE, safe (log entry 9): what the `k`-th host read of `rx_buf[a]` gives for `a ≥ rx_len` (R24, I10). -/
opaque Config.unspecifiedByte : Nat → Nat → Byte

end Sys2Proof
end

