-- ==== Sys2Proof/Syntax.lean ====
section
/-! DEFINITION. The operations of the core that have an encoding (30_encoding.md R90): one constructor per row of
spec/opcode_table.json, in the table's order. -/

namespace Sys2Proof

/-- The operations. Host commands (kind CMD, R88) carry their operands; frame operations (kind FRAME, R74) carry the
payload of the validated frame that selected them. -/
inductive Instr where
  /-- `RESET` (R240) -/
  | reset
  /-- `FEED(b, now)` (R110) -/
  | feed (b : Byte) (now : Nat)
  /-- `POLL(now)` (R121, R183) -/
  | poll (now : Nat)
  /-- `SEND(addr, type, payload)` (R190) -/
  | send (addr type : Byte) (payload : List Byte)
  /-- `PT.SET(v)` (R200) -/
  | ptSet (v : Bool)
  /-- `DEC.CH(P, now)` (R141); `now` is that of the `FEED` that completed the frame (D25) -/
  | decCh (payload : List Byte) (now : Nat)
  /-- `DEC.LS(P)` (R157) -/
  | decLs (payload : List Byte)
  /-- `DEC.GPS(P)` (R158) -/
  | decGps (payload : List Byte)
  /-- `DEC.BAT(P)` (R159) -/
  | decBat (payload : List Byte)
  /-- `DEC.ATT(P)` (R160) -/
  | decAtt (payload : List Byte)
  /-- `DEC.PARAM(vario, P)` (R161) -/
  | decParamVario (payload : List Byte)
  /-- `DEC.PARAM(baro, P)` (R161) -/
  | decParamBaro (payload : List Byte)
  /-- `DEC.PARAM(airspeed, P)` (R161) -/
  | decParamAirspeed (payload : List Byte)
  /-- `DEC.PARAM(rpm, P)` (R161) -/
  | decParamRpm (payload : List Byte)
  /-- `DEC.PARAM(temp, P)` (R161) -/
  | decParamTemp (payload : List Byte)
  /-- `DEC.PARAM(cells, P)` (R161) -/
  | decParamCells (payload : List Byte)
  /-- `DEC.UNK` (R162), with the type byte no active row matches and the opaque payload (log entry 13) -/
  | decUnk (type : Byte) (payload : List Byte)
  deriving DecidableEq, Repr

/-- `DEC.PARAM(x, P)` of R161 for each `x`. -/
def Instr.decParam (x : SensorId) (payload : List Byte) : Instr :=
  match x with
  | .vario => .decParamVario payload
  | .baro => .decParamBaro payload
  | .airspeed => .decParamAirspeed payload
  | .rpm => .decParamRpm payload
  | .temp => .decParamTemp payload
  | .cells => .decParamCells payload

/-- Kind CMD of R90: issued by the host. -/
def Instr.isCommand : Instr → Bool
  | .reset => true
  | .feed _ _ => true
  | .poll _ => true
  | .send _ _ _ => true
  | .ptSet _ => true
  | .decCh _ _ => false
  | .decLs _ => false
  | .decGps _ => false
  | .decBat _ => false
  | .decAtt _ => false
  | .decParamVario _ => false
  | .decParamBaro _ => false
  | .decParamAirspeed _ => false
  | .decParamRpm _ => false
  | .decParamTemp _ => false
  | .decParamCells _ => false
  | .decUnk _ _ => false

end Sys2Proof
end

