-- ==== Sys2Proof/WellFormed.lean ====
section
/-! DEFINITION. Which configurations are admitted (00_scope.md R19) and which operands an operation can carry. -/

namespace Sys2Proof

/-- A field of a layout descriptor is 1, 2, 3 or 4 bytes wide (R81). -/
def widthOk (n : Nat) : Bool := decide (1 ≤ n) && decide (n ≤ 4)

/-- The form of a layout descriptor (R81). -/
def Layout.wf (d : Layout) : Bool :=
  d.head.all (fun f => widthOk f.width) &&
  match d.slots with
  | none => true
  | some a => widthOk a.width

/-- R19 for one sensor: a layout that is not `none` has the form of R81 and fits in the largest payload. -/
def Config.layoutOk (c : Config) : Option Layout → Bool
  | none => true
  | some d => d.wf && decide (d.size ≤ c.maxFrameSize - 2)

/-- R19: the configurations that are admitted. DEDUCED, safe (log entry 12): `1 ≤ TIME_W`, which `2^(TIME_W-1)` of R19
presupposes, and the widths of R81. -/
def Config.wf (c : Config) : Bool :=
  decide (3 ≤ c.maxFrameSize) && decide (c.maxFrameSize ≤ 253) && decide (6 ≤ c.rxCap) && decide (1 ≤ c.timeW) &&
  decide (c.idleTimeout < 2 ^ (c.timeW - 1)) && decide (c.linkTimeout < 2 ^ (c.timeW - 1)) &&
  decide c.typeCodes.Nodup &&
  c.layoutOk c.sensorLayout.vario && c.layoutOk c.sensorLayout.baro && c.layoutOk c.sensorLayout.airspeed &&
  c.layoutOk c.sensorLayout.rpm && c.layoutOk c.sensorLayout.temp && c.layoutOk c.sensorLayout.cells

/-- A time operand is `TIME_W` bits (R14; log entry 22). -/
def Config.timeOk (c : Config) (now : Nat) : Bool := decide (now < 2 ^ c.timeW)

/-- The payload of a receivable frame is 1 to `MAX_FRAME_SIZE - 2` bytes (R72). -/
def Config.payloadOk (c : Config) (p : List Byte) : Bool :=
  decide (1 ≤ p.length) && decide (p.length ≤ c.maxFrameSize - 2)

/-- The sensor whose type code `t` is, if any (R74). -/
def Config.sensorOf (c : Config) (t : Byte) : Option SensorId :=
  if t = c.typeSensor.vario then some .vario
  else if t = c.typeSensor.baro then some .baro
  else if t = c.typeSensor.airspeed then some .airspeed
  else if t = c.typeSensor.rpm then some .rpm
  else if t = c.typeSensor.temp then some .temp
  else if t = c.typeSensor.cells then some .cells
  else none

/-- `SENSOR_LAYOUT[x] ≠ none`: the sensor type is supported (R17). -/
def Config.supports (c : Config) (x : SensorId) : Bool := (c.sensorLayout.get x).isSome

/-- The type is known and supported: its row of the table is active (R85). -/
def Config.knownType (c : Config) (t : Byte) : Bool :=
  decide (t = c.typeCh) || decide (t = c.typeLs) || decide (t = c.typeGps) || decide (t = c.typeBat) ||
  decide (t = c.typeAtt) ||
  match c.sensorOf t with
  | none => false
  | some x => c.supports x

/-- The operands an operation can carry under a configuration: a time of `TIME_W` bits; the payload of a receivable frame;
`DEC.PARAM` only for a supported sensor, `DEC.UNK` only for a type no active row matches (R85, R161, R162). -/
def Instr.wf (c : Config) : Instr → Bool
  | .reset => true
  | .feed _ now => c.timeOk now
  | .poll now => c.timeOk now
  | .send _ _ _ => true
  | .ptSet _ => true
  | .decCh p now => c.payloadOk p && c.timeOk now
  | .decLs p => c.payloadOk p
  | .decGps p => c.payloadOk p
  | .decBat p => c.payloadOk p
  | .decAtt p => c.payloadOk p
  | .decParamVario p => c.payloadOk p && c.supports .vario
  | .decParamBaro p => c.payloadOk p && c.supports .baro
  | .decParamAirspeed p => c.payloadOk p && c.supports .airspeed
  | .decParamRpm p => c.payloadOk p && c.supports .rpm
  | .decParamTemp p => c.payloadOk p && c.supports .temp
  | .decParamCells p => c.payloadOk p && c.supports .cells
  | .decUnk t p => c.payloadOk p && !c.knownType t

end Sys2Proof
end

