-- ==== Sys2Proof/Machine/Operands.lean ====
section
/-! DEFINITION. Operand assembly (30_encoding.md section 5): the big-endian field primitives (R155, R156, R168), the
generic layout fields (R81, R161, R167), the 11-bit channel fields (R56, R140, R144) and the unit transforms (R142, R143). -/

namespace Sys2Proof.Machine

/-- `n` bytes of `P` from payload offset `o`: `P[o .. o+n-1]`. -/
def slice (p : List Byte) (o n : Nat) : List Byte := (p.drop o).take n

/-- `BE_U(s)` (R155): the most significant byte first. -/
def beU (s : List Byte) : Nat := s.foldl (fun v b => v * 256 + b.toNat) 0

/-- `sext_N(v)` (00_scope.md section 6). -/
def sext (n v : Nat) : Int := if v < 2 ^ (n - 1) then (v : Int) else (v : Int) - 2 ^ n

/-- `BE_I(s)` (R156): `sext_{8n}(BE_U(s))`. -/
def beI (s : List Byte) : Int := sext (8 * s.length) (beU s)

/-- `PUT_BE(v, n)` (R168): byte `j` is `((v mod 256^n) >> (8·(n−1−j))) & 0xFF`. -/
def putBe (v : Int) (n : Nat) : List Byte :=
  (List.range n).map (fun j => BitVec.ofNat 8 ((v % 256 ^ n).toNat >>> (8 * (n - 1 - j))))

/-- `PUT_BE` of a field (R168, D18): a value outside the field's range is refused. -/
def putField (n : Nat) (signed : Bool) (v : Int) : Option (List Byte) :=
  if fits n signed v then some (putBe v n) else none

/-- A field of `n` bytes at payload offset `o` (R82): no scaling, no offset. -/
def field (p : List Byte) (o n : Nat) (signed : Bool) : Int :=
  if signed then beI (slice p o n) else (beU (slice p o n) : Int)

/-- The head fields of a layout, in order, from payload offset `o` (R161). -/
def headFields : List Field → Nat → List Byte → List Int
  | [], _, _ => []
  | f :: fs, o, p => field p o f.width f.signed :: headFields fs (o + f.width) p

/-- The slot array of a layout from payload offset `o` (R161): `min(max_count, (len(P) − o) div n)` elements; trailing bytes
that fill no slot are ignored. -/
def slotFields : Option SlotArray → Nat → List Byte → List Int
  | none, _, _ => []
  | some a, o, p =>
    (List.range (min a.maxCount ((p.length - o) / a.width))).map (fun j => field p (o + j * a.width) a.width a.signed)

/-- The record a layout descriptor reads from a payload (R161). -/
def readLayout (d : Layout) (p : List Byte) : SensorRec where
  head := headFields d.head 0 p
  slots := slotFields d.slots d.size p

/-- The concatenation of encoded fields, refused when one of them is (R168, R197). -/
def joinFields : List (Option (List Byte)) → Option (List Byte)
  | [] => some []
  | none :: _ => none
  | some b :: rest =>
    match joinFields rest with
    | none => none
    | some bs => some (b ++ bs)

/-- The head fields of a layout by `PUT_BE` in order (R167). A list of another length is refused, DESIGN CHOICE (log entry 17). -/
def putHead : List Field → List Int → Option (List Byte)
  | [], [] => some []
  | f :: fs, v :: vs => joinFields [putField f.width f.signed v, putHead fs vs]
  | [], _ :: _ => none
  | _ :: _, [] => none

/-- The slot array's elements in order, at most `max_count` (R167). More elements, or elements where the layout has no slot
array, are refused, DESIGN CHOICE (log entry 17). -/
def putSlots : Option SlotArray → List Int → Option (List Byte)
  | none, [] => some []
  | none, _ :: _ => none
  | some a, vs => if vs.length ≤ a.maxCount then joinFields (vs.map (putField a.width a.signed)) else none

/-- The payload of a record under a layout descriptor (R167). -/
def writeLayout (d : Layout) (r : SensorRec) : Option (List Byte) := joinFields [putHead d.head r.head, putSlots d.slots r.slots]

/-- A byte sequence as one little-endian integer, `Σ P[k]·256^k` (R56). -/
def leNat : List Byte → Nat
  | [] => 0
  | b :: bs => b.toNat + 256 * leNat bs

/-- `UNPACK11(P)` (R140), whole-number form: channel `i` is `(V >> 11·i) & 0x7FF`. -/
def unpack11 (p : List Byte) : ChannelSet :=
  ⟨⟨(List.range nCh).map (fun i => BitVec.ofNat 11 (leNat (p.take chPayload) >>> (11 * i)))⟩, by simp⟩

/-- One channel of the byte-window form of R140. -/
def window11 (p : List Byte) (i : Nat) : Raw :=
  let k := 11 * i / 8
  let s := 11 * i % 8
  let w := (p.getD k 0).toNat ||| ((p.getD (k + 1) 0).toNat <<< 8) |||
    (if 6 ≤ s then (p.getD (k + 2) 0).toNat <<< 16 else 0)
  BitVec.ofNat 11 (w >>> s)

/-- `UNPACK11(P)` (R140), byte-window form, no wide integer. -/
def unpack11ByWindow (p : List Byte) : ChannelSet := ⟨⟨(List.range nCh).map (window11 p)⟩, by simp⟩

/-- `Σ raw[i] << (11·i)` (R144). -/
def packNat : List Raw → Nat
  | [] => 0
  | r :: rs => r.toNat + 2048 * packNat rs

/-- `PACK11(raw[0 .. 15])` (R144): byte `k` is `(V >> 8·k) & 0xFF`. -/
def pack11 (raw : ChannelSet) : List Byte :=
  (List.range chPayload).map (fun k => BitVec.ofNat 8 (packNat raw.toList >>> (8 * k)))

/-- `RAW2US(raw)` (R142): truncating division. -/
def raw2us (r : Raw) : Nat := r.toNat * 5 / 8 + 880

/-- `US2RAW(us)` (R143): defined for 880 ≤ us ≤ 2159 only, refused elsewhere (D18). -/
def us2raw (us : Nat) : Option Raw :=
  if 880 ≤ us ∧ us ≤ 2159 then some (BitVec.ofNat 11 (us * 8 / 5 - 1408)) else none

/-- The sixteen microsecond values of a Channel Set (R31). -/
def usOf (raw : ChannelSet) : List Nat := raw.toList.map raw2us

end Sys2Proof.Machine
end

