-- ==== Sys2Proof/Machine/Reference.lean ====
section
/-! DEFINITION. The reference configuration of the core. -/

namespace Sys2Proof

/-- The reference configuration: the values of every test vector (R7 to R10, R14, R18, D29) and the default type codes of
R74. UNVERIFIED, unsafe: all type codes but 0x16 (R74 flags its own defaults as general knowledge; log entry 5). DESIGN CHOICE, unsafe: the
OPEN parameters `addrFilter`, `ownAddr`, `sendRequiresLinkUp` (log entry 4); no statement rests on them. -/
def Config.reference : Config where
  rxCap := 64
  maxFrameSize := 62
  idleTimeout := 100
  linkTimeout := 300
  addrFilter := false
  ownAddr := 0xC8#8
  sendRequiresLinkUp := false
  timeW := 32
  typeCh := 0x16#8
  typeLs := 0x14#8
  typeGps := 0x02#8
  typeBat := 0x08#8
  typeAtt := 0x1E#8
  typeSensor := ⟨0x07#8, 0x09#8, 0x0A#8, 0x0C#8, 0x0D#8, 0x0E#8⟩
  sensorLayout := .all none
  overflowCheck := .beforeEval

end Sys2Proof
end

