-- ==== Sys2Proof/Decode.lean ====
section
/-! DEFINITION. The decoder and the encoder (30_encoding.md). Two formats, as the opcode table has them: the host packet
of a CMD row (the 4-bit code of R88; the operand layout is this model's, log entry 2) and the wire frame of a FRAME row
(R70), selected by its type byte (R74). -/

namespace Sys2Proof

open Sys2Proof.Machine (beU putBe crc8)

/-- An encoded operation: a host packet (format CMD), or a wire frame with the `now` of the `FEED` that completed it
(format FRAME; D25). -/
inductive Packet where
  | command (bytes : List Byte)
  | frame (now : Nat) (bytes : List Byte)
  deriving DecidableEq, Repr

/-- Why a packet holds no operation. -/
inductive DecodeError where
  /-- A host packet without a code byte. -/
  | emptyCommand
  /-- A code of R88 that selects nothing. -/
  | unknownCommand (code : Nat)
  /-- A known code whose operand bytes have no meaning (log entry 2). -/
  | malformedOperands (code : Nat)
  /-- Fewer bytes than a frame's address and length. -/
  | shortFrame
  /-- R84: `frame_size` below 3 or above `MAX_FRAME_SIZE`. -/
  | implausibleLength (frameSize : Nat)
  /-- Not `frame_size + 2` bytes in all (R71). -/
  | lengthMismatch (frameSize : Nat)
  /-- R75: the last byte is not the CRC of type and payload. -/
  | crcMismatch
  deriving DecidableEq, Repr

/-- The bytes that carry a `TIME_W`-bit operand in a host packet. DESIGN CHOICE, safe (log entry 2). -/
def Config.timeBytes (c : Config) : Nat := (c.timeW + 7) / 8

/-- A time operand of a host packet: `⌈TIME_W/8⌉` bytes, most significant first, below `2^TIME_W`. DESIGN CHOICE, safe
(log entry 2). -/
def readTime (c : Config) (bytes : List Byte) : Option Nat :=
  if bytes.length = c.timeBytes ∧ beU bytes < 2 ^ c.timeW then some (beU bytes) else none

/-- A host packet (R88): the code in the low nibble of byte 0, the high nibble 0, then the operands in the order of R88;
the payload of `SEND` is every byte left. DESIGN CHOICE, safe: the operand layout (log entry 2). -/
def decodeCommand (c : Config) : List Byte → Except DecodeError Instr
  | [] => .error .emptyCommand
  | code :: ops =>
    if code = 0x0#8 then
      match ops with
      | [] => .ok .reset
      | _ :: _ => .error (.malformedOperands 0)
    else if code = 0x1#8 then
      match ops with
      | [] => .error (.malformedOperands 1)
      | b :: t =>
        match readTime c t with
        | some now => .ok (.feed b now)
        | none => .error (.malformedOperands 1)
    else if code = 0x2#8 then
      match readTime c ops with
      | some now => .ok (.poll now)
      | none => .error (.malformedOperands 2)
    else if code = 0x3#8 then
      match ops with
      | addr :: type :: payload => .ok (.send addr type payload)
      | _ => .error (.malformedOperands 3)
    else if code = 0x4#8 then
      match ops with
      | [v] => if v = 0x0#8 then .ok (.ptSet false) else if v = 0x1#8 then .ok (.ptSet true) else .error (.malformedOperands 4)
      | _ => .error (.malformedOperands 4)
    else .error (.unknownCommand code.toNat)

/-- The operation the `type` byte of a validated frame selects (R74, the chain of R120): `DEC.PARAM` only for a supported
sensor, else `DEC.UNK` (R85). -/
def frameInstr (c : Config) (now : Nat) (type : Byte) (payload : List Byte) : Instr :=
  if type = c.typeCh then .decCh payload now
  else if type = c.typeLs then .decLs payload
  else if type = c.typeGps then .decGps payload
  else if type = c.typeBat then .decBat payload
  else if type = c.typeAtt then .decAtt payload
  else if type = c.typeSensor.vario ∧ c.sensorLayout.vario ≠ none then .decParamVario payload
  else if type = c.typeSensor.baro ∧ c.sensorLayout.baro ≠ none then .decParamBaro payload
  else if type = c.typeSensor.airspeed ∧ c.sensorLayout.airspeed ≠ none then .decParamAirspeed payload
  else if type = c.typeSensor.rpm ∧ c.sensorLayout.rpm ≠ none then .decParamRpm payload
  else if type = c.typeSensor.temp ∧ c.sensorLayout.temp ≠ none then .decParamTemp payload
  else if type = c.typeSensor.cells ∧ c.sensorLayout.cells ≠ none then .decParamCells payload
  else .decUnk type payload

/-- A wire frame (R70): plausible length (R72), exactly `frame_size + 2` bytes (R71), valid CRC (R75), then the type byte
selects (R74). The address takes no part (R73; the filter of R120 stands in `DISPATCH`). -/
def decodeFrame (c : Config) (now : Nat) : List Byte → Except DecodeError Instr
  | _ :: size :: body =>
    let l := size.toNat
    if l < 3 ∨ c.maxFrameSize < l then .error (.implausibleLength l)
    else if body.length ≠ l then .error (.lengthMismatch l)
    else if crc8 (body.take (l - 1)) ≠ body.getD (l - 1) 0 then .error .crcMismatch
    else .ok (frameInstr c now (body.getD 0 0) ((body.drop 1).take (l - 2)))
  | _ => .error .shortFrame

/-- The decoder, total on any packet. -/
def decode (c : Config) : Packet → Except DecodeError Instr
  | .command bytes => decodeCommand c bytes
  | .frame now bytes => decodeFrame c now bytes

/-- The frame of R194: `[addr, n + 2, type] ‖ payload ‖ [CRC8([type] ‖ payload)]`. -/
def buildFrame (addr type : Byte) (payload : List Byte) : List Byte :=
  [addr, BitVec.ofNat 8 (payload.length + 2), type] ++ payload ++ [crc8 (type :: payload)]

/-- A frame operation as a wire frame. The address and, but for `DEC.CH`, the time are no operands: the encoder writes
`OWN_ADDR` and 0, DESIGN CHOICE, safe (log entry 26). -/
def encodeFrame (c : Config) (now : Nat) (type : Byte) (payload : List Byte) : Packet :=
  .frame now (buildFrame c.ownAddr type payload)

/-- The encoder: the packet of an operation, from R88 and R70, R74. -/
def encode (c : Config) : Instr → Packet
  | .reset => .command [0x0#8]
  | .feed b now => .command ([0x1#8, b] ++ putBe now c.timeBytes)
  | .poll now => .command ([0x2#8] ++ putBe now c.timeBytes)
  | .send addr type payload => .command ([0x3#8, addr, type] ++ payload)
  | .ptSet v => .command [0x4#8, if v then 0x1#8 else 0x0#8]
  | .decCh p now => encodeFrame c now c.typeCh p
  | .decLs p => encodeFrame c 0 c.typeLs p
  | .decGps p => encodeFrame c 0 c.typeGps p
  | .decBat p => encodeFrame c 0 c.typeBat p
  | .decAtt p => encodeFrame c 0 c.typeAtt p
  | .decParamVario p => encodeFrame c 0 c.typeSensor.vario p
  | .decParamBaro p => encodeFrame c 0 c.typeSensor.baro p
  | .decParamAirspeed p => encodeFrame c 0 c.typeSensor.airspeed p
  | .decParamRpm p => encodeFrame c 0 c.typeSensor.rpm p
  | .decParamTemp p => encodeFrame c 0 c.typeSensor.temp p
  | .decParamCells p => encodeFrame c 0 c.typeSensor.cells p
  | .decUnk t p => encodeFrame c 0 t p

/-- The bytes of a table word, the first byte its least significant eight bits. -/
def wordBytes (nbits w : Nat) : List Byte := (List.range ((nbits + 7) / 8)).map (fun i => BitVec.ofNat 8 (w >>> (8 * i)))

/-- The length of a host packet with the shortest operands, by its code. -/
def commandLength (c : Config) (code : Nat) : Nat :=
  if code = 1 then 2 + c.timeBytes
  else if code = 2 then 1 + c.timeBytes
  else if code = 3 then 3
  else if code = 4 then 2
  else 1

/-- A table word of a CMD row as a host packet: every operand byte above the word is 0. -/
def commandOfWord (c : Config) (nbits w : Nat) : List Byte :=
  let bytes := wordBytes nbits w
  bytes ++ List.replicate (commandLength c (w % 256) - bytes.length) 0#8

/-- A layout for a sensor row whose configured layout is `none`: one unsigned byte. DESIGN CHOICE, safe (log entry 15): the
row of the table is active only under some layout; used for table words only. -/
def rowLayout : Layout := ⟨[⟨"value", 1, false⟩], none⟩

/-- The configuration under which the row of type code `t` is active: a sensor type without a layout gets `rowLayout`
(log entry 15). -/
def activeFor (c : Config) (t : Byte) : Config :=
  match c.sensorOf t with
  | none => c
  | some x => if c.supports x then c else { c with sensorLayout := c.sensorLayout.set x (some rowLayout) }

/-- The size of the smallest payload a type's decoder does not drop (R74); one byte for an unknown type (R72). -/
def payloadSize (c : Config) (t : Byte) : Nat :=
  if t = c.typeCh then chPayload
  else if t = c.typeLs then 10
  else if t = c.typeGps then 15
  else if t = c.typeBat then 8
  else if t = c.typeAtt then 6
  else
    match c.sensorOf t with
    | none => 1
    | some x =>
      match c.sensorLayout.get x with
      | none => 1
      | some d => max 1 d.size

/-- A table word of a FRAME row, its type byte, as a wire frame with a payload of zeros. -/
def frameOfWord (c : Config) (w : Nat) : List Byte :=
  let t := BitVec.ofNat 8 w
  buildFrame c.ownAddr t (List.replicate (payloadSize c t) 0#8)

/-- Which format a table word is read in. The table numbers its CMD and its FRAME rows in two code spaces that overlap
(POLL and DEC.GPS are both 2): the rows are tried in the table's order, CMD rows first. DESIGN CHOICE, safe (log entry 14). -/
def isCommandWord (nbits w : Nat) : Bool := decide (nbits < 8) || decide (w < 5)

/-- The instruction the decoder reads from a word of spec/opcode_table.json, under the reference configuration. -/
def decodeTableWord (nbits w : Nat) : Option Instr :=
  if isCommandWord nbits w then (decodeCommand Config.reference (commandOfWord Config.reference nbits w)).toOption
  else
    let c := activeFor Config.reference (BitVec.ofNat 8 w)
    (decodeFrame c 0 (frameOfWord c w)).toOption

end Sys2Proof
end

