-- ==== Sys2Proof/Machine/State.lean ====
section
/-! DEFINITION. The whole state of the core (10_state.md R23), the model's own ports beside it, its value after reset
(R39), and the reasons a step can stop. -/

namespace Sys2Proof.Machine

/-- The contents of `rx_buf` (R24, R50): addresses strictly rising, no entry equal to what an unlisted address reads as. -/
abbrev Memory := List Host.Cell

/-- What an address of `rx_buf` that is not listed reads as. DESIGN CHOICE, unsafe: the spec leaves such bytes unspecified
and no rule reads one (R24, R39; log entry 8). -/
def Memory.unlisted : Byte := 0x00#8

/-- The events of R217. A decode event carries a copy of the record just written (R218). -/
inductive Event where
  /-- link-up (R181) -/
  | linkUp
  /-- link-down (R183) -/
  | linkDown
  /-- channel-frame-decoded (R141): the raw and the microsecond values -/
  | channels (raw : ChannelSet) (us : List Nat)
  /-- link-statistics-decoded (R157) -/
  | linkStats (r : LinkStats)
  /-- each-sensor-type-decoded, GPS (R158) -/
  | gps (r : Gps)
  /-- each-sensor-type-decoded, Battery (R159) -/
  | battery (r : Battery)
  /-- each-sensor-type-decoded, Attitude (R160) -/
  | attitude (r : Attitude)
  /-- each-sensor-type-decoded, `Sensor(x)` (R161) -/
  | sensor (x : SensorId) (r : SensorRec)
  /-- out-of-band-byte (R119, R201) -/
  | oob (b : Byte)
  deriving DecidableEq, Repr

/-- The state of R23. Below the line stand the model's own fields: the configuration (an argument of the spec's model, log
entry 4), the outputs of the operation just run (R22, log entry 3) and the host operations not yet issued (log entry 1). -/
structure State where
  /-- `rx_buf` (R24) -/
  rxBuf : Memory
  /-- `rx_len` (R25) -/
  rxLen : Nat
  /-- `last_rx_time` (R26), `TIME_W` bits -/
  lastRxTime : Nat
  /-- `link_up` (R27) -/
  linkUp : Bool
  /-- `last_ch_time` (R28), `TIME_W` bits -/
  lastChTime : Nat
  /-- `passthrough` (R29) -/
  passthrough : Bool
  /-- `ch_raw[0 .. 15]` (R30), `none` until the first decode (R34) -/
  chRaw : Option ChannelSet
  /-- `ls` (R32), `none` until the first decode (R34) -/
  ls : Option LinkStats
  /-- `gps` (R33), `none` until the first decode (R34) -/
  gps : Option Gps
  /-- `bat` (R41), `none` until the first decode (R34) -/
  bat : Option Battery
  /-- `att` (R42), `none` until the first decode (R34) -/
  att : Option Attitude
  /-- `sens[t]` (R43), each `none` until its first decode (R34), and for ever where the layout is `none` (log entry 9) -/
  sens : PerSensor (Option SensorRec)
  /-- MODEL: the configuration (R7 to R19), written by no operation -/
  cfg : Config
  /-- MODEL: the event output (R22) -/
  events : List Event
  /-- MODEL: the transmit output (R22) -/
  tx : List Byte
  /-- MODEL: the status output of `SEND` (R196), `none` after another operation -/
  accepted : Option Bool
  /-- MODEL: the encoded host operations not yet issued, oldest first (R88) -/
  host : List (List Byte)
  deriving DecidableEq, Repr

/-- Why the machine stops with a fault. -/
inductive Fault where
  /-- Raised by `FEED` and `POLL` when `rx_len` points outside `rx_buf[0 .. RX_CAP-1]` (R50, R51). Safe: R25 keeps every
  run away from it (log entry 11). -/
  | rxBufAddress (addr : Nat)
  deriving DecidableEq, Repr

/-- Why an operation has no meaning. -/
inductive Refusal where
  /-- Raised by a refused arm of `exec` only. Safe. -/
  | notModelled (mnemonic : String)
  /-- Raised by `step` for a command code that selects nothing (R88, I11). Safe. -/
  | unknownCommand (code : Nat)
  /-- Raised by `step` for a host packet whose operand bytes have no meaning (log entries 2 and 25). Safe. -/
  | malformedCommand
  /-- Raised by `step` for a configuration R19 does not admit (I14). Safe. -/
  | illFormedConfig
  deriving DecidableEq, Repr

/-- The machine right after reset (R39). `rx_buf`, `last_rx_time` and `last_ch_time` are unspecified and unobservable there
(R241): DESIGN CHOICE, unsafe: nothing listed, 0 and 0 (log entries 7 and 8). The configuration is the reference one (log
entries 4 and 5); the ports are empty (log entries 1 and 3). -/
def State.reset : State where
  rxBuf := []
  rxLen := 0
  lastRxTime := 0
  linkUp := false
  lastChTime := 0
  passthrough := false
  chRaw := none
  ls := none
  gps := none
  bat := none
  att := none
  sens := .all none
  cfg := Config.reference
  events := []
  tx := []
  accepted := none
  host := []

end Sys2Proof.Machine
end

