-- ==== Sys2Proof/Machine/Ops.lean ====
section
/-! DEFINITION. The named operations over the receive buffer (20_memory.md section 1), the output ports (R22) and the host
port, and the one recovery step of the core: `DISCARD1`, which is all there is of taking an exception (R221) and of
returning from one (R222: the evaluation loop starts again at its first test). -/

namespace Sys2Proof.Machine

/-- One byte of `rx_buf` (R54). -/
def Memory.read : Memory → Nat → Byte
  | [], _ => Memory.unlisted
  | (k, b) :: m, a => if k = a then b else Memory.read m a

/-- Writes one byte of `rx_buf`, keeping the canonical form. -/
def Memory.write : Memory → Nat → Byte → Memory
  | [], a, v => if v = Memory.unlisted then [] else [(a, v)]
  | (k, b) :: m, a, v =>
    if a < k then (if v = Memory.unlisted then (k, b) :: m else (a, v) :: (k, b) :: m)
    else if a = k then (if v = Memory.unlisted then m else (a, v) :: m)
    else (k, b) :: Memory.write m a v

/-- The canonical form: addresses strictly rising, no entry equal to what an unlisted address reads as. -/
def Memory.wf : Memory → Bool
  | [] => true
  | (k, b) :: m => decide (b ≠ Memory.unlisted) && m.all (fun c => decide (k < c.1)) && Memory.wf m

/-- Every listed address lies in `0 .. cap-1` (R50). -/
def Memory.inside (cap : Nat) (m : Memory) : Bool := m.all (fun c => decide (c.1 < cap))

/-- `MemRead(addr, n)` (00_scope.md section 6): `n` bytes from `addr`, first byte first. -/
def memRead (m : Memory) (a n : Nat) : List Byte := (List.range n).map (fun i => m.read (a + i))

/-- The loop of R52: `for i in 0 .. k-1: rx_buf[i] <- rx_buf[i+n]`. -/
def copyDown (m : Memory) (n : Nat) : Nat → Memory
  | 0 => m
  | k + 1 =>
    let m' := copyDown m n k
    m'.write k (m'.read (k + n))

/-- Stores a byte sequence from address `a` on. -/
def memStore (m : Memory) (a : Nat) : List Byte → Memory
  | [] => m
  | b :: bs => memStore (m.write a b) (a + 1) bs

/-- `emit E(args)` (00_scope.md section 6). -/
def emit (e : Event) (s : State) : State := { s with events := s.events ++ [e] }

/-- `tx(bytes)` (00_scope.md section 6). -/
def transmit (bytes : List Byte) (s : State) : State := { s with tx := s.tx ++ bytes }

/-- The status output of `SEND` (R196). -/
def setAccepted (v : Bool) (s : State) : State := { s with accepted := some v }

/-- The byte `rx_buf[k]` (R54). -/
def rxByte (s : State) (k : Nat) : Byte := s.rxBuf.read k

/-- `APPEND(b)` (R51). -/
def append (b : Byte) (s : State) : State := { s with rxBuf := s.rxBuf.write s.rxLen b, rxLen := s.rxLen + 1 }

/-- `SHIFT(n)` (R52). The bytes at and above the new `rx_len` keep what they held (log entry 20). -/
def shift (n : Nat) (s : State) : State :=
  { s with rxBuf := copyDown s.rxBuf n (s.rxLen - n), rxLen := s.rxLen - n }

/-- Bulk reset (R53): the contents are not cleared. -/
def bulkReset (s : State) : State := { s with rxLen := 0 }

/-- `last_rx_time <- now` (R26). -/
def stampRx (now : Nat) (s : State) : State := { s with lastRxTime := now }

/-- `DISCARD1` (R119), the recovery of F1 and F2 and the step of the idle flush: no state is saved, no mode changes
(R221), nothing is restored afterwards (R222). -/
def discard1 (s : State) : State := emit (.oob (rxByte s 0)) (shift 1 s)

/-- The bytes `rx_buf[0 .. rx_len-1]`, the only meaningful ones (R24). -/
def buffered (s : State) : List Byte := memRead s.rxBuf 0 s.rxLen

/-- The next operation the host presents, decoded (R88); none between operations (R230). -/
def nextOp (s : State) : Option (Except DecodeError Instr) :=
  match s.host with
  | [] => none
  | packet :: _ => some (decodeCommand s.cfg packet)

/-- The host presents the next operation: it leaves the host port, and the output ports are empty (R22, log entry 3). -/
def issue (s : State) : State := { s with host := s.host.tail, events := [], tx := [], accepted := none }

/-- The name under which a host packet without an operation is refused (R88, I11; log entry 25). -/
def refusalOf : DecodeError → Refusal
  | .emptyCommand => .malformedCommand
  | .unknownCommand code => .unknownCommand code
  | .malformedOperands _ => .malformedCommand
  | .shortFrame => .malformedCommand
  | .implausibleLength _ => .malformedCommand
  | .lengthMismatch _ => .malformedCommand
  | .crcMismatch => .malformedCommand

/-- The host will present this packet next. -/
def withCommand (packet : List Byte) (s : State) : State := { s with host := packet :: s.host }

/-- All but the last byte of this frame is buffered, under configuration `c`, and the host will present its last byte
next: the `FEED` that selects the frame's operation (R120). -/
def withFrame (c : Config) (frame : List Byte) (s : State) : State :=
  withCommand ([0x1#8, frame.getLastD 0x00#8] ++ List.replicate c.timeBytes 0x00#8)
    { s with cfg := c, passthrough := false, rxBuf := memStore s.rxBuf 0 frame.dropLast, rxLen := frame.length - 1 }

end Sys2Proof.Machine
end

