-- ==== Sys2Proof/Machine/Flags.lean ====
section
/-! DEFINITION. The two one-bit flags of the core, `link_up` and `passthrough` (R36), the two timers that are compared in
`POLL` (R225), and the link-liveness state machine (44_link_state.md). -/

namespace Sys2Proof.Machine

/-- `elapsed(a, b) = (a − b) mod 2^TIME_W` (R14). -/
def elapsed (c : Config) (a b : Nat) : Nat := (((a : Int) - (b : Int)) % 2 ^ c.timeW).toNat

/-- The idle test F6 (R121, R225). -/
def idleExpired (now : Nat) (s : State) : Bool :=
  decide (0 < s.rxLen) && decide (s.cfg.idleTimeout ≤ elapsed s.cfg now s.lastRxTime)

/-- The link test F7 (R183, R225): strict (C5). -/
def linkExpired (now : Nat) (s : State) : Bool :=
  s.linkUp && decide (s.cfg.linkTimeout < elapsed s.cfg now s.lastChTime)

/-- Writes `link_up` (R27). -/
def setLinkUp (v : Bool) (s : State) : State := { s with linkUp := v }

/-- `last_ch_time <- now` (R28). -/
def stampCh (now : Nat) (s : State) : State := { s with lastChTime := now }

/-- Writes `passthrough` (R29). -/
def setPassthrough (v : Bool) (s : State) : State := { s with passthrough := v }

/-- `LINK.BEAT(now)` (R181). -/
def linkBeat (now : Nat) (s : State) : State :=
  if s.linkUp then stampCh now s else emit .linkUp (setLinkUp true (stampCh now s))

/-- `LINK.CHECK(now)` (R183). -/
def linkCheck (now : Nat) (s : State) : State :=
  if linkExpired now s then emit .linkDown (setLinkUp false s) else s

/-- The link gate of `SEND` (R193). -/
def linkGateShut (s : State) : Bool := s.cfg.sendRequiresLinkUp && !s.linkUp

end Sys2Proof.Machine
end

