-- ==== Sys2Proof/Machine/ChannelCodec.lean ====
section
/-! DEFINITION. The channel codec (42_channel_codec.md): the decoder of a Channels-Packed frame and the encoder. -/

namespace Sys2Proof.Machine

/-- `ch_raw[0 .. 15] <- v`, all sixteen in one step (R30, R60). -/
def setChRaw (v : ChannelSet) (s : State) : State := { s with chRaw := some v }

/-- `DEC.CH(P, now)` (R141): a short payload is dropped and is no heartbeat (R86, R182). -/
def decodeCh (p : List Byte) (now : Nat) (s : State) : State :=
  if p.length < chPayload then s
  else
    let raw := unpack11 p
    emit (.channels raw (usOf raw)) (linkBeat now (setChRaw raw s))

/-- The raw values of the operand microseconds; refused when one is out of range (R143, R145). -/
def rawOfUs : List Nat → Option (List Raw)
  | [] => some []
  | u :: us =>
    match us2raw u, rawOfUs us with
    | some r, some rs => some (r :: rs)
    | _, _ => none

/-- `ENC.CH(us[0 .. 15])` (R145): `PACK11(US2RAW(us[0]), ..., US2RAW(us[15]))`; refused for a value outside [880, 2159] and,
having no meaning, for a list that is not of sixteen values. -/
def encCh (us : List Nat) : Option (List Byte) :=
  match rawOfUs us with
  | none => none
  | some rs => if h : rs.length = nCh then some (pack11 ⟨⟨rs⟩, by simpa using h⟩) else none

/-- `DEC.CH` (R141). -/
def execDecCh (p : List Byte) (now : Nat) (s : State) : Host.Outcome State Fault Refusal := .next (decodeCh p now s)

end Sys2Proof.Machine
end

