-- ==== Sys2Proof/Machine/SensorCodec.lean ====
section
/-! DEFINITION. The sensor codec (43_sensor_codec.md): the decoders of the sensor frames and their encoders. No decoder
writes a flag (R182). A payload shorter than the layout is dropped, a longer one decoded from its first bytes (R86). -/

namespace Sys2Proof.Machine

/-- The record of a Link-Statistics payload (R77, R157). -/
def readLs (p : List Byte) : LinkStats where
  upRssi1 := field p 0 1 false
  upRssi2 := field p 1 1 false
  upLq := field p 2 1 false
  upSnr := field p 3 1 true
  antenna := field p 4 1 false
  rfMode := field p 5 1 false
  txPower := field p 6 1 false
  dnRssi := field p 7 1 false
  dnLq := field p 8 1 false
  dnSnr := field p 9 1 true

/-- The record of a GPS payload (R78, R158). -/
def readGps (p : List Byte) : Gps where
  lat := field p 0 4 true
  lon := field p 4 4 true
  groundspeed := field p 8 2 false
  heading := field p 10 2 false
  altitude := field p 12 2 false
  satellites := field p 14 1 false

/-- The record of a Battery payload (R79, R159). -/
def readBat (p : List Byte) : Battery where
  voltage := field p 0 2 false
  current := field p 2 2 false
  capacity := field p 4 3 false
  remaining := field p 7 1 false

/-- The record of an Attitude payload (R80, R160). -/
def readAtt (p : List Byte) : Attitude where
  pitch := field p 0 2 true
  roll := field p 2 2 true
  yaw := field p 4 2 true

/-- `ls <- r`, wholesale (R32, R169). -/
def setLs (r : LinkStats) (s : State) : State := { s with ls := some r }

/-- `gps <- r` (R33, R169). -/
def setGps (r : Gps) (s : State) : State := { s with gps := some r }

/-- `bat <- r` (R41, R169). -/
def setBat (r : Battery) (s : State) : State := { s with bat := some r }

/-- `att <- r` (R42, R169). -/
def setAtt (r : Attitude) (s : State) : State := { s with att := some r }

/-- `sens[x] <- r` (R43, R169). -/
def setSens (x : SensorId) (r : SensorRec) (s : State) : State := { s with sens := s.sens.set x (some r) }

/-- `DEC.LS(P)` (R157). -/
def decodeLs (p : List Byte) (s : State) : State :=
  if p.length < 10 then s else emit (.linkStats (readLs p)) (setLs (readLs p) s)

/-- `DEC.GPS(P)` (R158). -/
def decodeGps (p : List Byte) (s : State) : State :=
  if p.length < 15 then s else emit (.gps (readGps p)) (setGps (readGps p) s)

/-- `DEC.BAT(P)` (R159). -/
def decodeBat (p : List Byte) (s : State) : State :=
  if p.length < 8 then s else emit (.battery (readBat p)) (setBat (readBat p) s)

/-- `DEC.ATT(P)` (R160). -/
def decodeAtt (p : List Byte) (s : State) : State :=
  if p.length < 6 then s else emit (.attitude (readAtt p)) (setAtt (readAtt p) s)

/-- `DEC.UNK` (R162): no register changes, no event. -/
def dropFrame (s : State) : State := s

/-- `DEC.PARAM(x, P)` (R161); with no layout the type falls to `DEC.UNK`. -/
def decodeParam (x : SensorId) (p : List Byte) (s : State) : State :=
  match s.cfg.sensorLayout.get x with
  | none => dropFrame s
  | some d =>
    if p.length < d.size then s else emit (.sensor x (readLayout d p)) (setSens x (readLayout d p) s)

/-- `ENC.LS(r)` (R163). -/
def encLs (r : LinkStats) : Option (List Byte) :=
  joinFields [putField 1 false r.upRssi1, putField 1 false r.upRssi2, putField 1 false r.upLq, putField 1 true r.upSnr,
    putField 1 false r.antenna, putField 1 false r.rfMode, putField 1 false r.txPower, putField 1 false r.dnRssi,
    putField 1 false r.dnLq, putField 1 true r.dnSnr]

/-- `ENC.GPS(r)` (R164). -/
def encGps (r : Gps) : Option (List Byte) :=
  joinFields [putField 4 true r.lat, putField 4 true r.lon, putField 2 false r.groundspeed, putField 2 false r.heading,
    putField 2 false r.altitude, putField 1 false r.satellites]

/-- `ENC.BAT(r)` (R165). -/
def encBat (r : Battery) : Option (List Byte) :=
  joinFields [putField 2 false r.voltage, putField 2 false r.current, putField 3 false r.capacity,
    putField 1 false r.remaining]

/-- `ENC.ATT(r)` (R166). -/
def encAtt (r : Attitude) : Option (List Byte) :=
  joinFields [putField 2 true r.pitch, putField 2 true r.roll, putField 2 true r.yaw]

/-- `ENC.PARAM(x, r)` (R167). The rule defines it only when the layout is not `none`; for `none` the model refuses the
operand, DESIGN CHOICE, safe (log entry 17). -/
def encParam (c : Config) (x : SensorId) (r : SensorRec) : Option (List Byte) :=
  match c.sensorLayout.get x with
  | none => none
  | some d => writeLayout d r

/-- `DEC.LS` (R157). -/
def execDecLs (p : List Byte) (s : State) : Host.Outcome State Fault Refusal := .next (decodeLs p s)

/-- `DEC.GPS` (R158). -/
def execDecGps (p : List Byte) (s : State) : Host.Outcome State Fault Refusal := .next (decodeGps p s)

/-- `DEC.BAT` (R159). -/
def execDecBat (p : List Byte) (s : State) : Host.Outcome State Fault Refusal := .next (decodeBat p s)

/-- `DEC.ATT` (R160). -/
def execDecAtt (p : List Byte) (s : State) : Host.Outcome State Fault Refusal := .next (decodeAtt p s)

/-- `DEC.PARAM.VARIO` (R161). -/
def execDecParamVario (p : List Byte) (s : State) : Host.Outcome State Fault Refusal := .next (decodeParam .vario p s)

/-- `DEC.PARAM.BARO` (R161). -/
def execDecParamBaro (p : List Byte) (s : State) : Host.Outcome State Fault Refusal := .next (decodeParam .baro p s)

/-- `DEC.PARAM.AIRSPEED` (R161). -/
def execDecParamAirspeed (p : List Byte) (s : State) : Host.Outcome State Fault Refusal :=
  .next (decodeParam .airspeed p s)

/-- `DEC.PARAM.RPM` (R161). -/
def execDecParamRpm (p : List Byte) (s : State) : Host.Outcome State Fault Refusal := .next (decodeParam .rpm p s)

/-- `DEC.PARAM.TEMP` (R161). -/
def execDecParamTemp (p : List Byte) (s : State) : Host.Outcome State Fault Refusal := .next (decodeParam .temp p s)

/-- `DEC.PARAM.CELLS` (R161). -/
def execDecParamCells (p : List Byte) (s : State) : Host.Outcome State Fault Refusal := .next (decodeParam .cells p s)

/-- `DEC.UNK` (R162): whatever the type and the payload, nothing happens. -/
def execDecUnk (_type : Byte) (_payload : List Byte) (s : State) : Host.Outcome State Fault Refusal := .next (dropFrame s)

end Sys2Proof.Machine
end

