-- ==== Sys2Proof/Machine/Composer.lean ====
section
/-! DEFINITION. The outbound frame composer (45_frame_composer.md): `SEND` and the typed sends. -/

namespace Sys2Proof.Machine

/-- The three gates of `SEND` (R191, R192, R193); their order is not observable (R190). The size gate is
`n > MAX_FRAME_SIZE − 2`, written without a subtraction. -/
def sendShut (payload : List Byte) (s : State) : Bool :=
  decide (s.cfg.maxFrameSize < payload.length + 2) || s.passthrough || linkGateShut s

/-- `SEND(addr, type, payload)` (R190): the frame of R194 to the transport and `accepted = 1`, or nothing and
`accepted = 0`. -/
def sendFrame (addr type : Byte) (payload : List Byte) (s : State) : State :=
  if sendShut payload s then setAccepted false s
  else setAccepted true (transmit (buildFrame addr type payload) s)

/-- `SEND` (R190). -/
def execSend (addr type : Byte) (payload : List Byte) (s : State) : Host.Outcome State Fault Refusal :=
  .next (sendFrame addr type payload s)

/-- A typed send (R197): `SEND` of an encoder's output; nothing is sent when the encoder refuses its operand. -/
def sendEncoded (addr type : Byte) (payload : Option (List Byte)) (s : State) : State :=
  match payload with
  | none => setAccepted false s
  | some p => sendFrame addr type p s

/-- `SENDCH` (R197). -/
def sendCh (addr : Byte) (us : List Nat) (s : State) : State := sendEncoded addr s.cfg.typeCh (encCh us) s

/-- `SENDLS` (R197). -/
def sendLs (addr : Byte) (r : LinkStats) (s : State) : State := sendEncoded addr s.cfg.typeLs (encLs r) s

/-- `SENDGPS` (R197). -/
def sendGps (addr : Byte) (r : Gps) (s : State) : State := sendEncoded addr s.cfg.typeGps (encGps r) s

/-- `SENDBAT` (R197). -/
def sendBat (addr : Byte) (r : Battery) (s : State) : State := sendEncoded addr s.cfg.typeBat (encBat r) s

/-- `SENDATT` (R197). -/
def sendAtt (addr : Byte) (r : Attitude) (s : State) : State := sendEncoded addr s.cfg.typeAtt (encAtt r) s

/-- `SENDPARAM` (R197). For a sensor whose layout is `none`, where R167 defines no payload, nothing is sent and `accepted` is
0, DESIGN CHOICE, safe (log entry 17). -/
def sendParam (addr : Byte) (x : SensorId) (r : SensorRec) (s : State) : State :=
  sendEncoded addr (s.cfg.typeSensor.get x) (encParam s.cfg x r) s

end Sys2Proof.Machine
end

