-- ==== Sys2Proof/Machine/FrameSync.lean ====
section
/-! DEFINITION. The serial frame synchronizer (41_frame_sync.md): `FEED`, the evaluation loop, `DISPATCH`, and `POLL` with
its idle part and its link part. -/

namespace Sys2Proof.Machine

/-- Runs the frame operation that a validated frame selected (R120). The host commands are never selected by a frame. -/
def runFrame (i : Instr) (s : State) : State :=
  match i with
  | .decCh p now => decodeCh p now s
  | .decLs p => decodeLs p s
  | .decGps p => decodeGps p s
  | .decBat p => decodeBat p s
  | .decAtt p => decodeAtt p s
  | .decParamVario p => decodeParam .vario p s
  | .decParamBaro p => decodeParam .baro p s
  | .decParamAirspeed p => decodeParam .airspeed p s
  | .decParamRpm p => decodeParam .rpm p s
  | .decParamTemp p => decodeParam .temp p s
  | .decParamCells p => decodeParam .cells p s
  | .decUnk _ _ => dropFrame s
  | .reset => s
  | .feed _ _ => s
  | .poll _ => s
  | .send _ _ _ => s
  | .ptSet _ => s

/-- The `frame_size` byte of the candidate at the front (R61, R113). -/
def frontLength (s : State) : Nat := (rxByte s 1).toNat

/-- A plausible length (R72, R84, R114). -/
def plausible (c : Config) (l : Nat) : Bool := decide (3 ≤ l) && decide (l ≤ c.maxFrameSize)

/-- The CRC test on the complete candidate at the front (R116): offsets 2 to `L` against offset `L + 1`. -/
def frontCrcOk (s : State) : Bool :=
  decide (crc8 (memRead s.rxBuf 2 (frontLength s - 1)) = rxByte s (frontLength s + 1))

/-- The operation the validated frame at the front selects (R120): its type at offset 2, its payload at offsets 3 to `L`. -/
def frontInstr (now : Nat) (s : State) : Instr :=
  frameInstr s.cfg now (rxByte s 2) (memRead s.rxBuf 3 (frontLength s - 2))

/-- The optional address filter (R11, R120): plain equality. -/
def filteredOut (s : State) : Bool := s.cfg.addrFilter && decide (rxByte s 0 ≠ s.cfg.ownAddr)

/-- `DISPATCH(now)` (R120). -/
def dispatch (now : Nat) (s : State) : State := if filteredOut s then s else runFrame (frontInstr now s) s

/-- A validated frame: dispatched in place, then consumed (R117). -/
def consumeFrame (now : Nat) (s : State) : State := shift (frontLength s + 2) (dispatch now s)

/-- `EVAL(now)` (R113), with a bound on its iterations that R123 gives: every iteration that does not stop removes at
least one byte. DEDUCED, safe (log entry 19). -/
def evalLoop (now : Nat) : Nat → State → State
  | 0, s => s
  | fuel + 1, s =>
    if s.rxLen < 2 then s
    else if plausible s.cfg (frontLength s) = false then evalLoop now fuel (discard1 s)
    else if s.rxLen < frontLength s + 2 then s
    else if frontCrcOk s then evalLoop now fuel (consumeFrame now s)
    else evalLoop now fuel (discard1 s)

/-- `EVAL(now)` with the bound of R123: at most `rx_len` iterations. -/
def eval (now : Nat) (s : State) : State := evalLoop now s.rxLen s

/-- The overflow reset (R112), done only at the place of the test that the parameter names (R18). -/
def overflowTest (place : OverflowCheck) (s : State) : State :=
  if s.cfg.overflowCheck = place ∧ s.rxLen = s.cfg.rxCap then bulkReset s else s

/-- The part of `FEED` behind the passthrough gate (R110). -/
def assemble (b : Byte) (now : Nat) (s : State) : State :=
  overflowTest .afterEval (eval now (overflowTest .beforeEval (append b (stampRx now s))))

/-- `FEED(b, now)` (R110, R201). The append is inside the buffer whenever R25 holds; outside it the model faults (log
entry 11). -/
def execFeed (b : Byte) (now : Nat) (s : State) : Host.Outcome State Fault Refusal :=
  if s.passthrough then .next (emit (.oob b) s)
  else if s.cfg.rxCap ≤ s.rxLen then .fault (.rxBufAddress s.rxLen)
  else .next (assemble b now s)

/-- `while rx_len > 0: DISCARD1` (R121), `n` times at most. -/
def flush : Nat → State → State
  | 0, s => s
  | n + 1, s => if s.rxLen = 0 then s else flush n (discard1 s)

/-- The idle part of `POLL` (R121). -/
def idleFlush (now : Nat) (s : State) : State := if idleExpired now s then flush s.rxLen s else s

/-- `POLL(now)` (R121, R183): idle flush, then link check (D14). A flush that would read outside the buffer faults; R25
keeps every run away from it (log entry 11). -/
def execPoll (now : Nat) (s : State) : Host.Outcome State Fault Refusal :=
  if idleExpired now s && decide (s.cfg.rxCap < s.rxLen) then .fault (.rxBufAddress (s.rxLen - 1))
  else .next (linkCheck now (idleFlush now s))

end Sys2Proof.Machine
end

