-- ==== Sys2Proof/Machine/Passthrough.lean ====
section
/-! DEFINITION. The passthrough gate (46_passthrough_gate.md): `PT.SET`. What the flag gates stands in `FEED` (R201) and
`SEND` (R202); the baud rate is not modelled (R203). -/

namespace Sys2Proof.Machine

/-- `PT.SET(v)` (R200): the flag, nothing else. -/
def execPtSet (v : Bool) (s : State) : Host.Outcome State Fault Refusal := .next (setPassthrough v s)

end Sys2Proof.Machine
end

