-- ==== Sys2Proof/Machine/Reset.lean ====
section
/-! DEFINITION. `RESET` (70_reset_and_hazards.md R240). -/

namespace Sys2Proof.Machine

/-- Every decoded record becomes `none` (R34, R240). -/
def clearRecords (s : State) : State :=
  { s with chRaw := none, ls := none, gps := none, bat := none, att := none, sens := .all none }

/-- `RESET` (R240): `rx_buf`, `last_rx_time` and `last_ch_time` are left as they are; no event. -/
def execReset (s : State) : Host.Outcome State Fault Refusal :=
  .next (clearRecords (setPassthrough false (setLinkUp false (bulkReset s))))

end Sys2Proof.Machine
end

