-- ==== Sys2Proof/Machine/Dispatch.lean ====
section
/-! DEFINITION. The meaning of every operation: one arm per constructor of Instr. -/

namespace Sys2Proof.Machine

def exec (i : Instr) (s : State) : Host.Outcome State Fault Refusal :=
  match i with
  | .reset => Sys2Proof.Machine.execReset s
  | .feed b now => Sys2Proof.Machine.execFeed b now s
  | .poll now => Sys2Proof.Machine.execPoll now s
  | .send addr type payload => Sys2Proof.Machine.execSend addr type payload s
  | .ptSet v => Sys2Proof.Machine.execPtSet v s
  | .decCh payload now => Sys2Proof.Machine.execDecCh payload now s
  | .decLs payload => Sys2Proof.Machine.execDecLs payload s
  | .decGps payload => Sys2Proof.Machine.execDecGps payload s
  | .decBat payload => Sys2Proof.Machine.execDecBat payload s
  | .decAtt payload => Sys2Proof.Machine.execDecAtt payload s
  | .decParamVario payload => Sys2Proof.Machine.execDecParamVario payload s
  | .decParamBaro payload => Sys2Proof.Machine.execDecParamBaro payload s
  | .decParamAirspeed payload => Sys2Proof.Machine.execDecParamAirspeed payload s
  | .decParamRpm payload => Sys2Proof.Machine.execDecParamRpm payload s
  | .decParamTemp payload => Sys2Proof.Machine.execDecParamTemp payload s
  | .decParamCells payload => Sys2Proof.Machine.execDecParamCells payload s
  | .decUnk type payload => Sys2Proof.Machine.execDecUnk type payload s

end Sys2Proof.Machine
end

