-- ==== Sys2Proof/Machine/Step.lean ====
section
/-! DEFINITION. One step: one host operation run to completion (R20). -/

namespace Sys2Proof.Machine

/-- One step. A configuration R19 does not admit is refused (I14). With no operation pending the core holds its state
(R230, log entry 16). A host packet that holds no operation is refused by name (R88). -/
def step (s : State) : Host.Outcome State Fault Refusal :=
  if s.cfg.wf = false then .refused .illFormedConfig
  else
    match nextOp s with
    | none => .next s
    | some (.error e) => .refused (refusalOf e)
    | some (.ok i) => exec i (issue s)

/-- `s` with the instruction of a table word where the next step runs it (log entries 14 and 15): a CMD word is the packet
the host presents next; a FRAME word is the type byte of a frame whose last byte the host feeds next, since a frame
operation runs inside the `FEED` that completes its frame (R90, R120). -/
def State.withFetchWord (s : State) (nbits w : Nat) : State :=
  if isCommandWord nbits w then withCommand (commandOfWord s.cfg nbits w) s
  else
    let c := activeFor s.cfg (BitVec.ofNat 8 w)
    withFrame c (frameOfWord c w) s

end Sys2Proof.Machine
end

