-- ==== Sys2Proof/Machine/HostPort.lean ====
section
/-! DEFINITION. What the host does besides issuing an operation: reading registers (R40, R59) and the pseudo-operations of
the trace notation (R89, R122; log entry 23). A read takes the number `k` of the read, so that two reads of an unwritten record need not
agree: such a read gives an unspecified value (R34, I9), a free value of Config (log entry 9). -/

namespace Sys2Proof.Machine

/-- Host read of `ch_raw` (R30, R34). -/
def hostReadChRaw (k : Nat) (s : State) : ChannelSet := s.chRaw.getD (Config.unwrittenChRaw k)

/-- Host read of `ch_us`, no register but the microsecond values of `ch_raw` (R31). -/
def hostReadChUs (k : Nat) (s : State) : List Nat := usOf (hostReadChRaw k s)

/-- Host read of `ls` (R32, R34). -/
def hostReadLs (k : Nat) (s : State) : LinkStats := s.ls.getD (Config.unwrittenLs k)

/-- Host read of `gps` (R33, R34). -/
def hostReadGps (k : Nat) (s : State) : Gps := s.gps.getD (Config.unwrittenGps k)

/-- Host read of `bat` (R41, R34). -/
def hostReadBat (k : Nat) (s : State) : Battery := s.bat.getD (Config.unwrittenBat k)

/-- Host read of `att` (R42, R34). -/
def hostReadAtt (k : Nat) (s : State) : Attitude := s.att.getD (Config.unwrittenAtt k)

/-- Host read of `sens[x]` (R43, R34). Where `SENSOR_LAYOUT[x]` is `none` the register does not exist (R43) and no rule says
what a read of it gives: the model reads the slot it keeps, in which no operation puts a record: the read gives a free value.
DESIGN CHOICE, safe (log entry 9). -/
def hostReadSens (x : SensorId) (k : Nat) (s : State) : SensorRec := (s.sens.get x).getD (Config.unwrittenSens x k)

/-- Host read of `rx_buf[a]` (R24): unspecified at and above `rx_len`. -/
def hostReadRxBuf (a k : Nat) (s : State) : Byte := if a < s.rxLen then rxByte s a else Config.unspecifiedByte a k

/-- `FEEDS` (R89): `FEED` of each byte in order, all with the same `now`. -/
def feeds (bytes : List Byte) (now : Nat) : List Instr := bytes.map (fun b => .feed b now)

/-- `PUMP(bytes, now)` (R122): the `FEED`s, then `POLL(now)`. -/
def pump (bytes : List Byte) (now : Nat) : List Instr := feeds bytes now ++ [.poll now]

end Sys2Proof.Machine
end

