-- ==== Sys2Proof/Safety.lean ====
section
/-! DEFINITION. What a run of the core is, what every state between operations satisfies, and the terms the claims use. -/

namespace Sys2Proof.Machine

/-- A run: the operations one after another (R62). No port is emptied in between, so `events` and `tx` hold the outputs of
the whole run in order. -/
def runOps : List Instr → State → Host.Outcome State Fault Refusal
  | [], s => .next s
  | i :: is, s =>
    match exec i s with
    | .next t => runOps is t
    | .fault r => .fault r
    | .refused r => .refused r

/-- The registers a record of a layout may hold (R43, R81): a value in range for each head field, and for the slot array at
most `max_count` values in range. -/
def Layout.holds (d : Layout) (r : SensorRec) : Bool :=
  decide (r.head.length = d.head.length) &&
  (d.head.zip r.head).all (fun fv => fits fv.1.width fv.1.signed fv.2) &&
  match d.slots with
  | none => r.slots.isEmpty
  | some a => decide (r.slots.length ≤ a.maxCount) && r.slots.all (fits a.width a.signed)

/-- The stable state of R124: fewer than two bytes buffered, or the candidate at the front is plausible and incomplete. -/
def Stable (s : State) : Prop :=
  s.rxLen < 2 ∨ (3 ≤ frontLength s ∧ frontLength s ≤ s.cfg.maxFrameSize ∧ s.rxLen < frontLength s + 2)

/-- What holds between operations, in every state a run reaches: an admitted configuration (R19), the receive buffer in
canonical form and inside its address space (R50), the cursor below capacity (R25), the stable state (R124), timestamps of
`TIME_W` bits (R14) and every decoded record within its field types (R30 to R33, R41 to R43). -/
structure Inv (s : State) : Prop where
  cfgWf : s.cfg.wf = true
  bufCanonical : s.rxBuf.wf = true
  bufInside : s.rxBuf.inside s.cfg.rxCap = true
  lenBelow : s.rxLen < s.cfg.rxCap
  stable : Stable s
  rxTime : s.lastRxTime < 2 ^ s.cfg.timeW
  chTime : s.lastChTime < 2 ^ s.cfg.timeW
  ls : ∀ r, s.ls = some r → r.inRange = true
  gps : ∀ r, s.gps = some r → r.inRange = true
  bat : ∀ r, s.bat = some r → r.inRange = true
  att : ∀ r, s.att = some r → r.inRange = true
  sens : ∀ x r, s.sens.get x = some r → ∃ d, s.cfg.sensorLayout.get x = some d ∧ Layout.holds d r = true

/-- Two states no later operation can tell apart (R241): they agree on everything but `rx_buf` at and above `rx_len`,
`last_rx_time` while the buffer is empty, and `last_ch_time` while the link is Down. -/
structure ObsEq (s t : State) : Prop where
  cfg : s.cfg = t.cfg
  host : s.host = t.host
  rxLen : s.rxLen = t.rxLen
  buffered : buffered s = buffered t
  lastRxTime : 0 < s.rxLen → s.lastRxTime = t.lastRxTime
  linkUp : s.linkUp = t.linkUp
  lastChTime : s.linkUp = true → s.lastChTime = t.lastChTime
  passthrough : s.passthrough = t.passthrough
  chRaw : s.chRaw = t.chRaw
  ls : s.ls = t.ls
  gps : s.gps = t.gps
  bat : s.bat = t.bat
  att : s.att = t.att
  sens : s.sens = t.sens
  events : s.events = t.events
  tx : s.tx = t.tx
  accepted : s.accepted = t.accepted

/-- Two outcomes that agree up to `ObsEq`. -/
def ObsEqOutcome : Host.Outcome State Fault Refusal → Host.Outcome State Fault Refusal → Prop
  | .next s, .next t => ObsEq s t
  | .fault r, .fault r' => r = r'
  | .refused r, .refused r' => r = r'
  | _, _ => False

/-- The out-of-band bytes of an event list, in order (R217). -/
def oobBytes (es : List Event) : List Byte :=
  es.filterMap (fun e => match e with
    | .oob b => some b
    | _ => none)

/-- A decode event or a link event: anything but an out-of-band byte (R217). -/
def notOob : Event → Bool
  | .oob _ => false
  | _ => true

/-- How bytes leave the receive buffer (R228): one by one, reported out of band, or as a validated frame. -/
inductive Chunk where
  | stray (b : Byte)
  | frame (bytes : List Byte)
  deriving DecidableEq, Repr

def Chunk.bytes : Chunk → List Byte
  | .stray b => [b]
  | .frame f => f

def Chunk.strayByte : Chunk → Option Byte
  | .stray b => some b
  | .frame _ => none

/-- The link events of a list alternate, beginning with `LinkUp` when the link is Down and with `LinkDown` when it is Up
(R186). -/
def alternates : Bool → List Event → Bool
  | _, [] => true
  | up, .linkUp :: es => !up && alternates true es
  | up, .linkDown :: es => up && alternates false es
  | up, .channels _ _ :: es => alternates up es
  | up, .linkStats _ :: es => alternates up es
  | up, .gps _ :: es => alternates up es
  | up, .battery _ :: es => alternates up es
  | up, .attitude _ :: es => alternates up es
  | up, .sensor _ _ :: es => alternates up es
  | up, .oob _ :: es => alternates up es

/-- `FEED` of each byte at its own time. -/
def feedEach (bytes : List Byte) (times : List Nat) : List Instr := List.zipWith Instr.feed bytes times

end Sys2Proof.Machine
end

