-- ==== Sys2Proof/Certificates/Slice0/Obligations.lean ====
section
/-! DEFINITION. The statements about the core, from the numbered rules of spec/. A statement about `exec` for an operation
that answers a next state names every field that changes; all others, every byte of memory included, are the same. -/

open Sys2Proof Sys2Proof.Machine

/-! The CRC generator (40_crc8.md). -/

/-- R100 and R101: eight shift steps per byte, most significant bit first; the accumulator from zero, byte by byte, no
final XOR. -/
def Obligations.CrcIsBitwise : Prop :=
  (∀ c b : Byte, crc8Upd c b =
    (fun x : Byte => if x.getLsbD 7 then (x <<< 1) ^^^ 0xD5#8 else x <<< 1)^[8] (c ^^^ b)) ∧
  crc8 [] = 0 ∧ ∀ (s : List Byte) (b : Byte), crc8 (s ++ [b]) = crc8Upd (crc8 s) b

/-- The sentence of R102 that the spec marks derived: the printed table has 256 entries, entry `i` is `CRC8.UPD(0x00, i)`,
and the two forms are the same function. -/
def Obligations.CrcTableIsBitwise : Prop :=
  crcTable.length = 256 ∧ (∀ i : Byte, crcTable[i.toNat]? = some (crc8Upd 0 i)) ∧
  ∀ c b : Byte, crc8UpdByTable c b = crc8Upd c b

/-- Laws the spec marks derived (R100, R101, R104): a sequence followed by its own CRC has CRC zero, so the receiver's
comparison is a test for zero; the CRC of zeros is zero, and leading zeros do not count. -/
def Obligations.CrcResidueIsZero : Prop :=
  (∀ s : List Byte, crc8 (s ++ [crc8 s]) = 0) ∧
  (∀ (s : List Byte) (c : Byte), crc8 s = c ↔ crc8 (s ++ [c]) = 0) ∧
  (∀ n : Nat, crc8 (List.replicate n 0) = 0) ∧ ∀ (n : Nat) (s : List Byte), crc8 (List.replicate n 0 ++ s) = crc8 s

/-- R105, which the spec marks derived: linearity, and every error burst confined to 8 consecutive bits (every single-bit error among them) of
`s ‖ CRC8(s)` is detected. The burst `v` starts `j` bits into byte `k`. -/
def Obligations.CrcLinearDetectsBursts : Prop :=
  (∀ s t : List Byte, s.length = t.length →
    crc8 (List.zipWith (fun x y => x ^^^ y) s t) = crc8 s ^^^ crc8 t) ∧
  ∀ (s : List Byte) (k j m : Nat) (v : Byte), j ≤ 8 → v ≠ 0 → k + 2 + m = s.length + 1 →
    crc8 (List.zipWith (fun x y => x ^^^ y) (s ++ [crc8 s])
      (List.replicate k 0 ++ [v >>> j, v <<< (8 - j)] ++ List.replicate m 0)) ≠ 0

/-! Operand assembly (30_encoding.md section 5, 42_channel_codec.md, 43_sensor_codec.md section 1). -/

/-- R155 and R156: the most significant byte first; two's complement by the first byte's top bit. -/
def Obligations.BigEndianFields : Prop :=
  (∀ s : List Byte,
    beU s = ((List.range s.length).map (fun j => (s.getD j 0).toNat * 256 ^ (s.length - 1 - j))).sum ∧
    beU s < 256 ^ s.length) ∧
  ∀ (b : Byte) (s : List Byte),
    beI (b :: s) = if b.toNat < 0x80 then (beU (b :: s) : Int) else (beU (b :: s) : Int) - 256 ^ (s.length + 1)

/-- R168: byte `j` of `PUT_BE` and the refusal of a value outside the field's range; and the three round trips, which the
rule marks derived. -/
def Obligations.PutBigEndianRoundTrips : Prop :=
  (∀ (v : Int) (n : Nat), (putBe v n).length = n ∧
    ∀ j, j < n → ((putBe v n).getD j 0).toNat = (v % 256 ^ n).toNat >>> (8 * (n - 1 - j)) &&& 0xFF) ∧
  (∀ (v : Int) (n : Nat), putField n false v = if 0 ≤ v ∧ v < 256 ^ n then some (putBe v n) else none) ∧
  (∀ (v : Int) (n : Nat), putField n true v =
    if -(256 ^ n / 2) ≤ v ∧ v < 256 ^ n / 2 then some (putBe v n) else none) ∧
  (∀ (v : Int) (n : Nat), 0 ≤ v → v < 256 ^ n → (beU (putBe v n) : Int) = v) ∧
  (∀ (v : Int) (n : Nat), -(256 ^ n / 2) ≤ v → v < 256 ^ n / 2 → beI (putBe v n) = v) ∧
  ∀ s : List Byte, putBe (beU s) s.length = s

/-- R56: bit `m` of channel `i` is payload bit `11·i + m`, numbered from the least significant bit of byte 0; and the same
as one little-endian 176-bit integer. -/
def Obligations.ChannelBitsLayout : Prop :=
  ∀ P : List Byte, 22 ≤ P.length → ∀ i (hi : i < 16),
    (∀ m, m < 11 → (unpack11 P)[i].getLsbD m = (P.getD ((11 * i + m) / 8) 0).getLsbD ((11 * i + m) % 8)) ∧
    (unpack11 P)[i].toNat =
      (((List.range 22).map (fun k => (P.getD k 0).toNat * 256 ^ k)).sum >>> (11 * i)) &&& 0x7FF

/-- R140: the whole-number form and the byte-window form are one function; bytes beyond index 21 are ignored. -/
def Obligations.UnpackFormsAgree : Prop :=
  ∀ P : List Byte, 22 ≤ P.length →
    unpack11 P = unpack11ByWindow P ∧ (∀ Q : List Byte, unpack11 (P.take 22 ++ Q) = unpack11 P) ∧
    ∀ i (hi : i < 16), (unpack11 P)[i].toNat =
      (((List.range 22).map (fun k => (P.getD k 0).toNat * 256 ^ k)).sum >>> (11 * i)) &&& 0x7FF

/-- R144: the bytes of `PACK11`; and that it is the inverse of `UNPACK11`, both ways, which the rule marks derived. -/
def Obligations.PackUnpackInverse : Prop :=
  (∀ raw : ChannelSet, (pack11 raw).length = 22 ∧
    (∀ k, k < 22 → ((pack11 raw).getD k 0).toNat =
      (((List.range 16).map (fun i => (raw.toList.getD i 0).toNat <<< (11 * i))).sum >>> (8 * k)) &&& 0xFF) ∧
    unpack11 (pack11 raw) = raw) ∧
  ∀ P : List Byte, 22 ≤ P.length → pack11 (unpack11 P) = P.take 22

/-- R142: the decode transform, its range, that it is monotone, onto [880, 2159] and not injective. -/
def Obligations.RawToMicroseconds : Prop :=
  (∀ r : Raw, raw2us r = r.toNat * 5 / 8 + 880 ∧ 880 ≤ raw2us r ∧ raw2us r ≤ 2159) ∧
  (∀ r q : Raw, r.toNat ≤ q.toNat → raw2us r ≤ raw2us q) ∧
  (∀ u : Nat, 880 ≤ u → u ≤ 2159 → ∃ r : Raw, raw2us r = u) ∧
  ∃ r q : Raw, r ≠ q ∧ raw2us r = raw2us q

/-- R143: the encode transform on [880, 2159], refused outside. -/
def Obligations.MicrosecondsToRaw : Prop :=
  (∀ us : Nat, 880 ≤ us → us ≤ 2159 → ∃ r : Raw, us2raw us = some r ∧ r.toNat + 1408 = us * 8 / 5 ∧ r.toNat ≤ 2046) ∧
  ∀ us : Nat, us < 880 ∨ 2160 ≤ us → us2raw us = none

/-- R146, laws 1 and 2, which the spec marks derived: what one round trip loses, and its fixed points. -/
def Obligations.TransformRoundTripLoss : Prop :=
  (∀ r : Raw, ∃ q : Raw, us2raw (raw2us r) = some q ∧ q.toNat ≤ r.toNat ∧ r.toNat ≤ q.toNat + 2 ∧
    (q = r ↔ r.toNat % 8 = 0)) ∧
  ∀ u : Nat, 880 ≤ u → u ≤ 2159 → ∃ q : Raw, us2raw u = some q ∧ raw2us q ≤ u ∧ u ≤ raw2us q + 1 ∧
    (raw2us q = u ↔ u % 5 = 0)

/-- R145: sixteen microsecond values in [880, 2159] are packed as their raw values; any value outside is refused. -/
def Obligations.EncodeChannels : Prop :=
  ∀ us : List Nat, us.length = 16 →
    ((∀ u ∈ us, 880 ≤ u ∧ u ≤ 2159) → ∃ raw : ChannelSet, encCh us = some (pack11 raw) ∧
      raw.toList.map (fun r => r.toNat) = us.map (fun u => u * 8 / 5 - 1408)) ∧
    ((∃ u ∈ us, u < 880 ∨ 2159 < u) → encCh us = none)

/-! The frame operations (42_channel_codec.md, 43_sensor_codec.md). -/

/-- R141 and R181: a payload of at least 22 bytes writes all sixteen channels, stamps the heartbeat, raises the link with
`LinkUp` only on the edge, then emits `Channels`; a shorter one does nothing. -/
def Obligations.DecChResult : Prop :=
  ∀ (P : List Byte) (now : Nat) (s : State),
    (P.length < 22 → exec (.decCh P now) s = .next s) ∧
    (22 ≤ P.length → exec (.decCh P now) s = .next { s with
      chRaw := some (unpack11 P)
      lastChTime := now
      linkUp := true
      events := s.events ++ (if s.linkUp then [] else [Event.linkUp]) ++
        [Event.channels (unpack11 P) ((unpack11 P).toList.map (fun r => r.toNat * 5 / 8 + 880))] })

/-- R157: the ten fields of a Link-Statistics payload, the two SNR fields signed; a short payload does nothing. -/
def Obligations.DecLsResult : Prop :=
  (∀ (P : List Byte) (s : State), P.length < 10 → exec (.decLs P) s = .next s) ∧
  ∀ (b0 b1 b2 b3 b4 b5 b6 b7 b8 b9 : Byte) (rest : List Byte) (s : State),
    let r : LinkStats := {
      upRssi1 := b0.toNat, upRssi2 := b1.toNat, upLq := b2.toNat, upSnr := b3.toInt, antenna := b4.toNat,
      rfMode := b5.toNat, txPower := b6.toNat, dnRssi := b7.toNat, dnLq := b8.toNat, dnSnr := b9.toInt }
    exec (.decLs (b0 :: b1 :: b2 :: b3 :: b4 :: b5 :: b6 :: b7 :: b8 :: b9 :: rest)) s =
      .next { s with ls := some r, events := s.events ++ [Event.linkStats r] }

/-- R158: the six fields of a GPS payload, latitude and longitude signed; a short payload does nothing. -/
def Obligations.DecGpsResult : Prop :=
  (∀ (P : List Byte) (s : State), P.length < 15 → exec (.decGps P) s = .next s) ∧
  ∀ (b0 b1 b2 b3 b4 b5 b6 b7 b8 b9 b10 b11 b12 b13 b14 : Byte) (rest : List Byte) (s : State),
    let r : Gps := {
      lat := (b0 ++ b1 ++ b2 ++ b3).toInt, lon := (b4 ++ b5 ++ b6 ++ b7).toInt,
      groundspeed := (b8 ++ b9).toNat, heading := (b10 ++ b11).toNat, altitude := (b12 ++ b13).toNat,
      satellites := b14.toNat }
    exec (.decGps (b0 :: b1 :: b2 :: b3 :: b4 :: b5 :: b6 :: b7 :: b8 :: b9 :: b10 :: b11 :: b12 :: b13 :: b14 :: rest)) s =
      .next { s with gps := some r, events := s.events ++ [Event.gps r] }

/-- R159: the four fields of a Battery payload, the third of 24 bits; a short payload does nothing. -/
def Obligations.DecBatResult : Prop :=
  (∀ (P : List Byte) (s : State), P.length < 8 → exec (.decBat P) s = .next s) ∧
  ∀ (b0 b1 b2 b3 b4 b5 b6 b7 : Byte) (rest : List Byte) (s : State),
    let r : Battery := {
      voltage := (b0 ++ b1).toNat, current := (b2 ++ b3).toNat, capacity := (b4 ++ b5 ++ b6).toNat,
      remaining := b7.toNat }
    exec (.decBat (b0 :: b1 :: b2 :: b3 :: b4 :: b5 :: b6 :: b7 :: rest)) s =
      .next { s with bat := some r, events := s.events ++ [Event.battery r] }

/-- R160: the three signed fields of an Attitude payload; a short payload does nothing. -/
def Obligations.DecAttResult : Prop :=
  (∀ (P : List Byte) (s : State), P.length < 6 → exec (.decAtt P) s = .next s) ∧
  ∀ (b0 b1 b2 b3 b4 b5 : Byte) (rest : List Byte) (s : State),
    let r : Attitude := { pitch := (b0 ++ b1).toInt, roll := (b2 ++ b3).toInt, yaw := (b4 ++ b5).toInt }
    exec (.decAtt (b0 :: b1 :: b2 :: b3 :: b4 :: b5 :: rest)) s =
      .next { s with att := some r, events := s.events ++ [Event.attitude r] }

/-- R161, for the six constructors `decParamVario` to `decParamCells`: with a layout and a payload that is long enough,
`sens[x]` alone is written, each head field from its offset, then as many slots as fit and `max_count` allows; with a short
payload or no layout nothing happens. -/
def Obligations.DecParamResult : Prop :=
  ∀ (x : SensorId) (i : List Byte → Instr),
    (x, i) ∈ [(SensorId.vario, Instr.decParamVario), (.baro, .decParamBaro), (.airspeed, .decParamAirspeed),
      (.rpm, .decParamRpm), (.temp, .decParamTemp), (.cells, .decParamCells)] →
    ∀ (P : List Byte) (s : State),
      (s.cfg.sensorLayout.get x = none → exec (i P) s = .next s) ∧
      ∀ d : Layout, s.cfg.sensorLayout.get x = some d →
        (P.length < d.size → exec (i P) s = .next s) ∧
        (d.size ≤ P.length → ∃ r : SensorRec,
          exec (i P) s = .next { s with sens := s.sens.set x (some r), events := s.events ++ [Event.sensor x r] } ∧
          r.head.length = d.head.length ∧
          (∀ (j : Nat) (f : Field), d.head[j]? = some f →
            r.head[j]? = some (
              let bytes := (P.drop ((d.head.take j).map Field.width).sum).take f.width
              if f.signed then beI bytes else (beU bytes : Int))) ∧
          (d.slots = none → r.slots = []) ∧
          ∀ a : SlotArray, d.slots = some a →
            r.slots.length = min a.maxCount ((P.length - d.size) / a.width) ∧
            ∀ j, j < r.slots.length → r.slots[j]? = some (
              let bytes := (P.drop (d.size + j * a.width)).take a.width
              if a.signed then beI bytes else (beU bytes : Int)))

/-- R162: an unknown type changes nothing and emits nothing, whatever its payload. -/
def Obligations.DecUnkResult : Prop :=
  ∀ (t : Byte) (P : List Byte) (s : State), exec (.decUnk t P) s = .next s

/-- R170, which the spec marks derived, for the four records with a layout in the source: a record in range is stored again by the decoder of its own
encoding, and a payload of exactly the layout's size is the encoding of what it decodes to. -/
def Obligations.FixedRecordsRoundTrip : Prop :=
  (∀ (r : LinkStats) (s : State), r.inRange = true → ∃ P, encLs r = some P ∧
    exec (.decLs P) s = .next { s with ls := some r, events := s.events ++ [Event.linkStats r] }) ∧
  (∀ (r : Gps) (s : State), r.inRange = true → ∃ P, encGps r = some P ∧
    exec (.decGps P) s = .next { s with gps := some r, events := s.events ++ [Event.gps r] }) ∧
  (∀ (r : Battery) (s : State), r.inRange = true → ∃ P, encBat r = some P ∧
    exec (.decBat P) s = .next { s with bat := some r, events := s.events ++ [Event.battery r] }) ∧
  (∀ (r : Attitude) (s : State), r.inRange = true → ∃ P, encAtt r = some P ∧
    exec (.decAtt P) s = .next { s with att := some r, events := s.events ++ [Event.attitude r] }) ∧
  (∀ (P : List Byte) (s : State), P.length = 10 →
    ∃ t r, exec (.decLs P) s = .next t ∧ t.ls = some r ∧ encLs r = some P) ∧
  (∀ (P : List Byte) (s : State), P.length = 15 →
    ∃ t r, exec (.decGps P) s = .next t ∧ t.gps = some r ∧ encGps r = some P) ∧
  (∀ (P : List Byte) (s : State), P.length = 8 →
    ∃ t r, exec (.decBat P) s = .next t ∧ t.bat = some r ∧ encBat r = some P) ∧
  ∀ (P : List Byte) (s : State), P.length = 6 →
    ∃ t r, exec (.decAtt P) s = .next t ∧ t.att = some r ∧ encAtt r = some P

/-- R170, which the spec marks derived, for the six sensors whose layout is configuration (a record's form: log entries 17
and 18). -/
def Obligations.ParamRecordsRoundTrip : Prop :=
  ∀ (x : SensorId) (d : Layout) (s : State), s.cfg.sensorLayout.get x = some d → d.wf = true →
    (∀ r : SensorRec, Layout.holds d r = true → ∃ P, encParam s.cfg x r = some P ∧
      exec (Instr.decParam x P) s =
        .next { s with sens := s.sens.set x (some r), events := s.events ++ [Event.sensor x r] }) ∧
    ∀ P : List Byte, P.length = d.size →
      ∃ t r, exec (Instr.decParam x P) s = .next t ∧ t.sens.get x = some r ∧ encParam s.cfg x r = some P

/-! The host commands. -/

/-- R240: `RESET` clears the cursor, the two flags and every record, and nothing else; no event. -/
def Obligations.ResetResult : Prop :=
  ∀ s : State, exec .reset s = .next { s with
    rxLen := 0, linkUp := false, passthrough := false, chRaw := none, ls := none, gps := none, bat := none, att := none,
    sens := ⟨none, none, none, none, none, none⟩ }

/-- R200: `PT.SET(v)` writes the flag, nothing else. -/
def Obligations.PtSetResult : Prop :=
  ∀ (v : Bool) (s : State), exec (.ptSet v) s = .next { s with passthrough := v }

/-- R190 with its gates R191, R192, R193: a closed gate makes `SEND` a silent no-op with `accepted` 0; with all gates open
the frame of R194 is handed to the transport and `accepted` is 1; nothing else changes. The second byte is `n + 2` as a
number whenever `MAX_FRAME_SIZE` is at most 255. -/
def Obligations.SendResult : Prop :=
  ∀ (addr type : Byte) (P : List Byte) (s : State),
    let shut : Prop := s.cfg.maxFrameSize < P.length + 2 ∨ s.passthrough = true ∨
      (s.cfg.sendRequiresLinkUp = true ∧ s.linkUp = false)
    (shut → exec (.send addr type P) s = .next { s with accepted := some false }) ∧
    (¬ shut → exec (.send addr type P) s = .next { s with
      tx := s.tx ++ ([addr, BitVec.ofNat 8 (P.length + 2), type] ++ P ++ [crc8 (type :: P)])
      accepted := some true } ∧
      (s.cfg.maxFrameSize ≤ 255 → (BitVec.ofNat 8 (P.length + 2)).toNat = P.length + 2))

/-- R197: a typed send is `SEND` of its encoder's output with its type code, and sends nothing when the encoder refuses.
That a record of the wrong shape, or of a sensor whose layout is `none`, is refused is the model's choice (log entry 17). -/
def Obligations.TypedSends : Prop :=
  ∀ (addr : Byte) (s : State),
    (∀ us P, encCh us = some P → Host.Outcome.next (sendCh addr us s) = exec (.send addr s.cfg.typeCh P) s) ∧
    (∀ r P, encLs r = some P → Host.Outcome.next (sendLs addr r s) = exec (.send addr s.cfg.typeLs P) s) ∧
    (∀ r P, encGps r = some P → Host.Outcome.next (sendGps addr r s) = exec (.send addr s.cfg.typeGps P) s) ∧
    (∀ r P, encBat r = some P → Host.Outcome.next (sendBat addr r s) = exec (.send addr s.cfg.typeBat P) s) ∧
    (∀ r P, encAtt r = some P → Host.Outcome.next (sendAtt addr r s) = exec (.send addr s.cfg.typeAtt P) s) ∧
    (∀ x r P, encParam s.cfg x r = some P →
      Host.Outcome.next (sendParam addr x r s) = exec (.send addr (s.cfg.typeSensor.get x) P) s) ∧
    (∀ us, encCh us = none → sendCh addr us s = { s with accepted := some false }) ∧
    (∀ r, encLs r = none → sendLs addr r s = { s with accepted := some false }) ∧
    (∀ r, encGps r = none → sendGps addr r s = { s with accepted := some false }) ∧
    (∀ r, encBat r = none → sendBat addr r s = { s with accepted := some false }) ∧
    (∀ r, encAtt r = none → sendAtt addr r s = { s with accepted := some false }) ∧
    ∀ x r, encParam s.cfg x r = none → sendParam addr x r s = { s with accepted := some false }

/-- R121, R183: when the idle test holds, every buffered byte is reported out of band, front first, and the buffer is
empty; then, when the link test holds, the link falls with one `LinkDown`. Nothing else changes: of memory, only addresses
below `rx_len - 1` can, and only in a flush. This last clause is read from the loop of `SHIFT` (R52; log entry 20, DEDUCED);
R121 and R183 do not say it. -/
def Obligations.PollResult : Prop :=
  ∀ (now : Nat) (s : State), s.rxBuf.wf = true → s.rxLen ≤ s.cfg.rxCap →
    let idle : Prop := 0 < s.rxLen ∧ (s.cfg.idleTimeout : Int) ≤ ((now : Int) - s.lastRxTime) % 2 ^ s.cfg.timeW
    let late : Prop := s.linkUp = true ∧ (s.cfg.linkTimeout : Int) < ((now : Int) - s.lastChTime) % 2 ^ s.cfg.timeW
    ∃ m : Memory, exec (.poll now) s = .next { s with
        rxBuf := m
        rxLen := if idle then 0 else s.rxLen
        linkUp := if late then false else s.linkUp
        events := s.events ++ (if idle then (buffered s).map Event.oob else []) ++
          (if late then [Event.linkDown] else []) } ∧
      (¬ idle → m = s.rxBuf) ∧ ∀ a, s.rxLen ≤ a + 1 → m.read a = s.rxBuf.read a

/-- R205, which the spec marks derived: `POLL` does the same whether or not passthrough is set. -/
def Obligations.PollIgnoresPassthrough : Prop :=
  ∀ (v : Bool) (now : Nat) (s t : State), exec (.poll now) s = .next t →
    exec (.poll now) { s with passthrough := v } = .next { t with passthrough := v }

/-- R201: under passthrough `FEED` is exactly one out-of-band byte. -/
def Obligations.FeedUnderPassthrough : Prop :=
  ∀ (b : Byte) (now : Nat) (s : State), s.passthrough = true →
    exec (.feed b now) s = .next { s with events := s.events ++ [Event.oob b] }

/-- R110: under passthrough only the out-of-band byte; else stamp, append, the overflow test where the parameter places it,
the evaluation loop. -/
def Obligations.FeedSequence : Prop :=
  ∀ (b : Byte) (now : Nat) (s : State),
    (s.passthrough = true → exec (.feed b now) s = .next { s with events := s.events ++ [Event.oob b] }) ∧
    (s.passthrough = false → s.rxLen < s.cfg.rxCap →
      let s1 : State := { s with lastRxTime := now, rxBuf := s.rxBuf.write s.rxLen b, rxLen := s.rxLen + 1 }
      let s2 : State := if s.cfg.overflowCheck = .beforeEval ∧ s.rxLen + 1 = s.cfg.rxCap then { s1 with rxLen := 0 } else s1
      let s3 : State := eval now s2
      exec (.feed b now) s = .next
        (if s.cfg.overflowCheck = .afterEval ∧ s3.rxLen = s.cfg.rxCap then { s3 with rxLen := 0 } else s3))

/-- R112, R213: the byte that fills the buffer empties it, silently; of memory only the byte at `rx_len` is written. -/
def Obligations.FeedOverflow : Prop :=
  ∀ (b : Byte) (now : Nat) (s : State), s.passthrough = false → s.cfg.overflowCheck = .beforeEval →
    s.rxLen + 1 = s.cfg.rxCap →
    exec (.feed b now) s = .next { s with lastRxTime := now, rxBuf := s.rxBuf.write s.rxLen b, rxLen := 0 }

/-- R115: a byte that leaves fewer than two bytes, or a plausible candidate incomplete, is appended and nothing else
happens. The length byte is the one at address 1 after the append. -/
def Obligations.FeedWaits : Prop :=
  ∀ (b : Byte) (now : Nat) (s : State), s.passthrough = false → s.rxLen + 1 < s.cfg.rxCap →
    let l := ((s.rxBuf.write s.rxLen b).read 1).toNat
    (s.rxLen = 0 ∨ (3 ≤ l ∧ l ≤ s.cfg.maxFrameSize ∧ s.rxLen + 1 < l + 2)) →
    exec (.feed b now) s = .next { s with lastRxTime := now, rxBuf := s.rxBuf.write s.rxLen b, rxLen := s.rxLen + 1 }

/-- R113: the loop's four cases, each the loop again on what its case leaves: wait for two bytes; implausible length,
discard one byte; incomplete, wait; valid, dispatch and consume `L + 2` bytes; bad CRC, discard one byte. -/
def Obligations.EvalIteration : Prop :=
  ∀ (now : Nat) (s : State),
    let l := (s.rxBuf.read 1).toNat
    let crcOk : Prop := crc8 (memRead s.rxBuf 2 (l - 1)) = s.rxBuf.read (l + 1)
    (s.rxLen < 2 → eval now s = s) ∧
    (2 ≤ s.rxLen → l < 3 ∨ s.cfg.maxFrameSize < l → eval now s = eval now (discard1 s)) ∧
    (2 ≤ s.rxLen → 3 ≤ l → l ≤ s.cfg.maxFrameSize → s.rxLen < l + 2 → eval now s = s) ∧
    (3 ≤ l → l ≤ s.cfg.maxFrameSize → l + 2 ≤ s.rxLen → crcOk → eval now s = eval now (shift (l + 2) (dispatch now s))) ∧
    (3 ≤ l → l ≤ s.cfg.maxFrameSize → l + 2 ≤ s.rxLen → ¬ crcOk → eval now s = eval now (discard1 s))

/-- R119, R221: `DISCARD1` reports the front byte out of band and removes it; of the state it writes the buffer and the
cursor only. That no address from `rx_len - 1` on is written is read from the loop of `SHIFT` (R52; log entry 20, DEDUCED);
R119 and R221 do not say it. -/
def Obligations.DiscardOneByte : Prop :=
  ∀ (s : State) (b : Byte) (rest : List Byte), s.rxBuf.wf = true → buffered s = b :: rest →
    ∃ m : Memory, discard1 s = { s with rxBuf := m, rxLen := s.rxLen - 1, events := s.events ++ [Event.oob b] } ∧
      buffered (discard1 s) = rest ∧ ∀ a, s.rxLen ≤ a + 1 → m.read a = s.rxBuf.read a

/-- R123, which the spec marks derived: `rx_len` iterations of the loop, and `rx_len` discards of the flush, are all there are: a larger bound changes
nothing, and every iteration that does not stop removes a byte. -/
def Obligations.LoopsTerminate : Prop :=
  ∀ (now n : Nat) (s : State),
    (s.rxLen ≤ n → evalLoop now n s = eval now s ∧ flush n s = flush s.rxLen s ∧ (flush n s).rxLen = 0) ∧
    (0 < s.rxLen → (discard1 s).rxLen + 1 = s.rxLen) ∧
    (3 ≤ frontLength s → frontLength s + 2 ≤ s.rxLen → (consumeFrame now s).rxLen + 5 ≤ s.rxLen)

/-- R120 with R74: a complete valid candidate at the front decodes, as a wire frame, to the operation its type selects; `DISPATCH`
runs exactly that operation unless the address filter rejects the frame, and then does nothing. -/
def Obligations.DispatchRunsDecodedFrame : Prop :=
  ∀ (now : Nat) (s : State),
    let l := (s.rxBuf.read 1).toNat
    3 ≤ l → l ≤ s.cfg.maxFrameSize → crc8 (memRead s.rxBuf 2 (l - 1)) = s.rxBuf.read (l + 1) →
    ∃ i, decodeFrame s.cfg now (memRead s.rxBuf 0 (l + 2)) = .ok i ∧
      i = frameInstr s.cfg now (s.rxBuf.read 2) (memRead s.rxBuf 3 (l - 2)) ∧
      ((s.cfg.addrFilter = true → s.rxBuf.read 0 = s.cfg.ownAddr) → exec i s = .next (dispatch now s)) ∧
      (s.cfg.addrFilter = true → s.rxBuf.read 0 ≠ s.cfg.ownAddr → dispatch now s = s)

/-- R74, R85: which operation each type code selects, under pairwise distinct codes: a sensor type without a layout, and
any other code, is unknown. -/
def Obligations.TypeCodeSelects : Prop :=
  ∀ (c : Config) (now : Nat) (P : List Byte), c.wf = true →
    frameInstr c now c.typeCh P = .decCh P now ∧ frameInstr c now c.typeLs P = .decLs P ∧
    frameInstr c now c.typeGps P = .decGps P ∧ frameInstr c now c.typeBat P = .decBat P ∧
    frameInstr c now c.typeAtt P = .decAtt P ∧
    (∀ x : SensorId, frameInstr c now (c.typeSensor.get x) P =
      if c.sensorLayout.get x = none then .decUnk (c.typeSensor.get x) P else Instr.decParam x P) ∧
    ∀ t : Byte, t ∉ c.typeCodes → frameInstr c now t P = .decUnk t P

/-- `FEED` past the gate completes and leaves everything the receive side does not own: the passthrough flag, the send
ports, the host port, the configuration, every byte of memory above the appended one; it stamps `last_rx_time`, and the
cursor grows by at most one and stays below the capacity. That no byte above the appended one changes is read from the loop
of `SHIFT` (R52; log entry 20, DEDUCED); R40 and R110 do not say it. -/
def Obligations.FeedFrame : Prop :=
  ∀ (b : Byte) (now : Nat) (s : State), s.rxBuf.wf = true → s.passthrough = false → s.rxLen < s.cfg.rxCap →
    ∃ t, exec (.feed b now) s = .next t ∧ t.lastRxTime = now ∧ t.passthrough = s.passthrough ∧ t.tx = s.tx ∧
      t.accepted = s.accepted ∧ t.host = s.host ∧ t.cfg = s.cfg ∧ t.rxLen ≤ s.rxLen + 1 ∧ t.rxLen < s.cfg.rxCap ∧
      (s.linkUp = true → t.linkUp = true) ∧ (∃ new, t.events = s.events ++ new) ∧
      ∀ a, s.rxLen < a → t.rxBuf.read a = s.rxBuf.read a

/-! Whole-machine rules. -/

/-- R216: every operation completes in every state whose cursor is inside the buffer (R25; log entry 11). -/
def Obligations.EveryOperationCompletes : Prop :=
  ∀ (i : Instr) (s : State), s.rxLen < s.cfg.rxCap → ∃ t, exec i s = .next t

/-- R40: which host operation may write which state. That `RESET` leaves `rx_buf` alone, where R40 gives it a W on the pair
`rx_buf`, `rx_len`, is R240's "left as they are" (log entry 20, DEDUCED). -/
def Obligations.WritersOfState : Prop :=
  ∀ (i : Instr) (s t : State), i.isCommand = true → exec i s = .next t →
    (t.rxBuf ≠ s.rxBuf → (∃ b now, i = .feed b now) ∨ ∃ now, i = .poll now) ∧
    (t.rxLen ≠ s.rxLen → i = .reset ∨ (∃ b now, i = .feed b now) ∨ ∃ now, i = .poll now) ∧
    (t.lastRxTime ≠ s.lastRxTime → s.passthrough = false ∧ ∃ b now, i = .feed b now) ∧
    (s.linkUp = false → t.linkUp = true → ∃ b now, i = .feed b now) ∧
    (s.linkUp = true → t.linkUp = false → i = .reset ∨ ∃ now, i = .poll now) ∧
    (t.lastChTime ≠ s.lastChTime → ∃ b now, i = .feed b now) ∧
    (t.passthrough ≠ s.passthrough → i = .reset ∨ ∃ v, i = .ptSet v) ∧
    (t.chRaw ≠ s.chRaw ∨ t.ls ≠ s.ls ∨ t.gps ≠ s.gps ∨ t.bat ≠ s.bat ∨ t.att ≠ s.att ∨ t.sens ≠ s.sens →
      i = .reset ∨ ∃ b now, i = .feed b now) ∧
    t.cfg = s.cfg

/-- R229, which the spec marks derived: a `FEED` that raises nothing but out-of-band bytes (whatever faults it met) changes no decoded register, no link
state and not the passthrough flag. -/
def Obligations.FaultsKeepDecodedState : Prop :=
  ∀ (b : Byte) (now : Nat) (s t : State) (new : List Event), exec (.feed b now) s = .next t →
    t.events = s.events ++ new → (∀ e ∈ new, notOob e = false) →
    t.chRaw = s.chRaw ∧ t.ls = s.ls ∧ t.gps = s.gps ∧ t.bat = s.bat ∧ t.att = s.att ∧ t.sens = s.sens ∧
    t.linkUp = s.linkUp ∧ t.lastChTime = s.lastChTime ∧ t.passthrough = s.passthrough

/-- R228, which the spec marks derived: every byte presented by `FEED` ends in exactly one of four ways. Without an overflow the old bytes and the new
one are, in order, some stray bytes reported out of band and some validated frames, then what is still buffered; with an
overflow, or by `RESET`, they are gone without an event; an idle flush reports each; under passthrough the byte is
reported. -/
def Obligations.ByteAccounting : Prop :=
  (∀ (b : Byte) (now : Nat) (s : State), s.rxBuf.wf = true → s.passthrough = false → s.rxLen + 1 < s.cfg.rxCap →
    ∃ (t : State) (chunks : List Chunk) (new : List Event), exec (.feed b now) s = .next t ∧
      buffered s ++ [b] = chunks.flatMap Chunk.bytes ++ buffered t ∧ t.events = s.events ++ new ∧
      oobBytes new = chunks.filterMap Chunk.strayByte ∧
      ∀ f, Chunk.frame f ∈ chunks → ∃ i, decodeFrame s.cfg now f = .ok i) ∧
  (∀ (b : Byte) (now : Nat) (s : State), s.passthrough = false → s.cfg.overflowCheck = .beforeEval →
    s.rxLen + 1 = s.cfg.rxCap → ∃ t, exec (.feed b now) s = .next t ∧ buffered t = [] ∧ t.events = s.events) ∧
  (∀ (b : Byte) (now : Nat) (s : State), s.passthrough = true →
    ∃ t, exec (.feed b now) s = .next t ∧ buffered t = buffered s ∧ t.events = s.events ++ [Event.oob b]) ∧
  (∀ (now : Nat) (s : State), s.rxBuf.wf = true → s.rxLen < s.cfg.rxCap → ∃ (t : State) (new : List Event),
    exec (.poll now) s = .next t ∧ t.events = s.events ++ new ∧ buffered s = oobBytes new ++ buffered t) ∧
  ∀ s : State, ∃ t, exec .reset s = .next t ∧ buffered t = [] ∧ t.events = s.events

/-- R125, which the spec marks derived: under the overflow test before evaluation, a candidate whose total length reaches the capacity never completes:
every byte is only buffered, without an event, until the one that fills the buffer empties it. -/
def Obligations.OversizedNeverDelivered : Prop :=
  ∀ (b : Byte) (now : Nat) (s : State), s.rxBuf.wf = true → s.passthrough = false →
    s.cfg.overflowCheck = .beforeEval → 2 ≤ s.rxLen → s.rxLen < s.cfg.rxCap → 3 ≤ frontLength s →
    frontLength s ≤ s.cfg.maxFrameSize → s.cfg.rxCap ≤ frontLength s + 2 →
    ∃ t, exec (.feed b now) s = .next t ∧ t.events = s.events ∧
      ((s.rxLen + 1 < s.cfg.rxCap ∧ buffered t = buffered s ++ [b]) ∨ (s.rxLen + 1 = s.cfg.rxCap ∧ buffered t = []))

/-- R198, which the spec marks derived: what an accepted `SEND` transmits, fed byte by byte (at any times) to a core of the same configuration with an
empty buffer, ends in the dispatch of the operation that the type selects, with the payload sent, at the last byte's
time; nothing else happens and the buffer is empty. -/
def Obligations.LoopbackDelivers : Prop :=
  ∀ (s s' r : State) (addr type : Byte) (P : List Byte) (times : List Nat) (last : Nat),
    s.cfg.wf = true → s.tx = [] → exec (.send addr type P) s = .next s' → s'.accepted = some true →
    1 ≤ P.length → P.length + 4 ≤ s.cfg.rxCap - 1 → (s.cfg.addrFilter = true → addr = s.cfg.ownAddr) →
    r.cfg = s.cfg → r.rxLen = 0 → r.passthrough = false → r.rxBuf.wf = true →
    times.length = s'.tx.length → times.getLast? = some last →
    ∃ (t u : State), runOps (feedEach s'.tx times) r = .next t ∧
      exec (frameInstr r.cfg last type P) r = .next u ∧
      t = { u with rxBuf := t.rxBuf, rxLen := 0, lastRxTime := last }

/-- R186, which the spec marks derived. As a step: if the link events of a state alternate, beginning with `LinkUp`, and its
link is Up exactly when more of them were `LinkUp`, every operation but `RESET` keeps both (`events` holds the outputs of the
whole run, log entry 3). As a run: over any run without a `RESET` from a Down link with no event yet, both hold at the
end. -/
def Obligations.LinkEventsAlternate : Prop :=
  (∀ (i : Instr) (s t : State), i ≠ .reset → exec i s = .next t → alternates false s.events = true →
    (s.linkUp = true ↔ s.events.count Event.linkDown < s.events.count Event.linkUp) →
    alternates false t.events = true ∧
    (t.linkUp = true ↔ t.events.count Event.linkDown < t.events.count Event.linkUp)) ∧
  ∀ (ops : List Instr) (s t : State), Instr.reset ∉ ops → s.linkUp = false → s.events = [] →
    runOps ops s = .next t →
    alternates false t.events = true ∧
    (t.linkUp = true ↔ t.events.count Event.linkDown < t.events.count Event.linkUp)

/-- R185, which the spec marks derived: the elapsed time is right across one wrap of `now`, and a `now` that lies `d` before the timestamp reads as
`2^TIME_W - d`. -/
def Obligations.ElapsedAcrossWrap : Prop :=
  ∀ (c : Config) (a d : Nat), d < 2 ^ c.timeW →
    elapsed c ((a + d) % 2 ^ c.timeW) a = d ∧ (0 < d → elapsed c a (a + d) = 2 ^ c.timeW - d)

/-- R188, which the spec marks derived, with nothing but `POLL`s after the heartbeat at `t0`: when they come at most `p` apart and one comes after the
threshold, the link falls in one of them, at a time in `(t0 + LINK_TIMEOUT, t0 + LINK_TIMEOUT + p]`, and none before it has
an effect. -/
def Obligations.LinkDownLatency : Prop :=
  ∀ (s : State) (p : Nat) (polls : List Nat), s.linkUp = true → s.rxLen = 0 →
    List.IsChain (fun a b => a ≤ b ∧ b ≤ a + p) (s.lastChTime :: polls) → (∀ u ∈ polls, u < 2 ^ s.cfg.timeW) →
    (∃ u ∈ polls, s.lastChTime + s.cfg.linkTimeout < u) →
    ∃ (before : List Nat) (u : Nat) (after : List Nat), polls = before ++ u :: after ∧
      s.lastChTime + s.cfg.linkTimeout < u ∧ u ≤ s.lastChTime + s.cfg.linkTimeout + p ∧
      runOps (before.map Instr.poll) s = .next s ∧
      exec (.poll u) s = .next { s with linkUp := false, events := s.events ++ [Event.linkDown] }

/-- R199, which the spec marks derived: an accepted or refused `SEND` before a `FEED` or a `POLL` changes nothing on the receive side. -/
def Obligations.SendDoesNotDisturbReceive : Prop :=
  ∀ (addr type : Byte) (P : List Byte) (i : Instr) (s u t : State),
    (∃ b now, i = .feed b now) ∨ (∃ now, i = .poll now) →
    exec (.send addr type P) s = .next u → exec i s = .next t →
    exec i u = .next { t with tx := u.tx, accepted := u.accepted }

/-- R241, which the spec marks derived: states that agree up to the unspecified registers are not told apart by any operation, and after `RESET` any two
states of one configuration agree so. -/
def Obligations.UnspecifiedRegistersUnobservable : Prop :=
  (∀ (i : Instr) (s t : State), s.rxBuf.wf = true → t.rxBuf.wf = true → ObsEq s t →
    ObsEqOutcome (exec i s) (exec i t)) ∧
  ∀ s t : State, s.cfg = t.cfg → s.host = t.host → ObsEqOutcome (exec .reset (issue s)) (exec .reset (issue t))

/-! Invariants. -/

/-- Every step keeps the invariant, this model's own collection (R14, R19, R24, R25, R30 to R33, R41 to R43, R50, R124). -/
def Obligations.StepKeepsInvariant : Prop :=
  ∀ s t : State, Inv s → step s = .next t → Inv t

/-- The state after reset meets the invariant. -/
def Obligations.ResetMeetsInvariant : Prop := Inv State.reset

/-- R124, which the spec marks derived: after every `FEED` the state is stable and the cursor is at most `min(MAX_FRAME_SIZE + 1, RX_CAP - 1)`. -/
def Obligations.FeedLeavesStableState : Prop :=
  ∀ (b : Byte) (now : Nat) (s t : State), s.cfg.wf = true → Stable s → s.rxLen < s.cfg.rxCap →
    exec (.feed b now) s = .next t →
    (t.rxLen < 2 ∨ (3 ≤ (t.rxBuf.read 1).toNat ∧ (t.rxBuf.read 1).toNat ≤ t.cfg.maxFrameSize ∧
      t.rxLen < (t.rxBuf.read 1).toNat + 2)) ∧
    t.rxLen ≤ min (s.cfg.maxFrameSize + 1) (s.cfg.rxCap - 1)

/-- R39: what the spec states of the state after reset. -/
def Obligations.ResetStateValues : Prop :=
  State.reset.rxLen = 0 ∧ State.reset.linkUp = false ∧ State.reset.passthrough = false ∧ State.reset.chRaw = none ∧
  State.reset.ls = none ∧ State.reset.gps = none ∧ State.reset.bat = none ∧ State.reset.att = none ∧
  ∀ x, State.reset.sens.get x = none

/-! Encoding and the step. -/

/-- For every well-formed operation, decoding its encoding gives it back, under every admitted configuration. The host
packet's operand layout and the encoder's address and time are the model's (log entries 2 and 26). -/
def Obligations.DecodeEncode : Prop :=
  ∀ (c : Config) (i : Instr), c.wf = true → i.wf c = true → decode c (encode c i) = .ok i

/-- Every host packet that decodes is the encoding of the well-formed host command it decodes to; the packet's operand
layout is the model's (log entry 2). -/
def Obligations.EncodeDecodeCommand : Prop :=
  ∀ (c : Config) (bytes : List Byte) (i : Instr), decodeCommand c bytes = .ok i →
    encode c i = .command bytes ∧ i.wf c = true ∧ i.isCommand = true

/-- R70, R71, R72: a byte sequence decodes as a wire frame exactly when it is `[a, n + 2, t] ‖ payload ‖ [CRC8(t ‖
payload)]` with a legal length, and then to the operation its type selects, whatever the address. -/
def Obligations.FrameFormat : Prop :=
  ∀ (c : Config) (now : Nat) (bytes : List Byte) (i : Instr), c.maxFrameSize ≤ 253 →
    (decodeFrame c now bytes = .ok i ↔
      ∃ (addr type : Byte) (P : List Byte), 1 ≤ P.length ∧ P.length + 2 ≤ c.maxFrameSize ∧
        bytes = [addr, BitVec.ofNat 8 (P.length + 2), type] ++ P ++ [crc8 (type :: P)] ∧ i = frameInstr c now type P)

/-- Words written out from the spec's encodings decode to their operations (R88 for the codes, the vectors of
95_test_vectors.md for the frames; the operand bytes of a host packet are the model's, log entry 2). -/
def Obligations.SpecWordsDecode : Prop :=
  decodeCommand Config.reference [0x00#8] = .ok .reset ∧
  decodeCommand Config.reference [0x01#8, 0xEE#8, 0x00#8, 0x00#8, 0x03#8, 0xE8#8] = .ok (.feed 0xEE#8 1000) ∧
  decodeCommand Config.reference [0x02#8, 0x00#8, 0x00#8, 0x05#8, 0x14#8] = .ok (.poll 1300) ∧
  decodeCommand Config.reference [0x03#8, 0xC8#8, 0x08#8, 0x01#8] = .ok (.send 0xC8#8 0x08#8 [0x01#8]) ∧
  decodeCommand Config.reference [0x04#8, 0x01#8] = .ok (.ptSet true) ∧
  decodeFrame Config.reference 0 [0xC8#8, 0x08#8, 0x1E#8, 0x01#8, 0x2C#8, 0xFF#8, 0x38#8, 0x80#8, 0x00#8, 0x03#8] =
    .ok (.decAtt [0x01#8, 0x2C#8, 0xFF#8, 0x38#8, 0x80#8, 0x00#8]) ∧
  decodeFrame Config.reference 0 [0xC8#8, 0x03#8, 0x7F#8, 0x01#8, 0x06#8] = .ok (.decUnk 0x7F#8 [0x01#8])

/-- One step runs the operation the host presents: it leaves the host port, the output ports are emptied, and the step is
`exec` of the decoded operation (R20; ports: log entries 1 and 3). -/
def Obligations.StepRunsDecodedOperation : Prop :=
  ∀ (s : State) (packet : List Byte) (rest : List (List Byte)) (i : Instr), s.cfg.wf = true →
    s.host = packet :: rest → decode s.cfg (.command packet) = .ok i →
    step s = exec i { s with host := rest, events := [], tx := [], accepted := none }

/-- Between operations the core holds its state (R230); a command code that selects nothing is refused by name (R88, I11); a
configuration that is not admitted is refused (R19, I14). Ports and refusals: log entries 1, 16 and 25. -/
def Obligations.StepIdlesAndRefuses : Prop :=
  (∀ s : State, s.cfg.wf = true → s.host = [] → step s = .next s) ∧
  (∀ (s : State) (code : Byte) (ops : List Byte) (rest : List (List Byte)), s.cfg.wf = true →
    s.host = (code :: ops) :: rest → 5 ≤ code.toNat → step s = .refused (.unknownCommand code.toNat)) ∧
  ∀ s : State, s.cfg.wf = false → step s = .refused .illFormedConfig

/-- A host read gives the last decoded record, and a buffered byte below `rx_len` (R34, R59). -/
def Obligations.HostReads : Prop :=
  ∀ (k : Nat) (s : State),
    (∀ v, s.chRaw = some v → hostReadChRaw k s = v ∧ hostReadChUs k s = v.toList.map (fun r => r.toNat * 5 / 8 + 880)) ∧
    (∀ v, s.ls = some v → hostReadLs k s = v) ∧
    (∀ v, s.gps = some v → hostReadGps k s = v) ∧ (∀ v, s.bat = some v → hostReadBat k s = v) ∧
    (∀ v, s.att = some v → hostReadAtt k s = v) ∧ (∀ x v, s.sens.get x = some v → hostReadSens x k s = v) ∧
    ∀ a, a < s.rxLen → some (hostReadRxBuf a k s) = (buffered s)[a]?
end

