-- ==== Sys2Proof/Laws/State.lean ====
section
/-! SUPPORT. What each named update of State does to each field: one lemma per field per update, true by unfolding once, so
that no later proof unfolds a record update. -/

namespace Sys2Proof.Machine

variable (s : State)

@[simp] theorem emit_rxBuf (e : Event) : (emit e s).rxBuf = s.rxBuf := rfl
@[simp] theorem emit_rxLen (e : Event) : (emit e s).rxLen = s.rxLen := rfl
@[simp] theorem emit_lastRxTime (e : Event) : (emit e s).lastRxTime = s.lastRxTime := rfl
@[simp] theorem emit_linkUp (e : Event) : (emit e s).linkUp = s.linkUp := rfl
@[simp] theorem emit_lastChTime (e : Event) : (emit e s).lastChTime = s.lastChTime := rfl
@[simp] theorem emit_passthrough (e : Event) : (emit e s).passthrough = s.passthrough := rfl
@[simp] theorem emit_chRaw (e : Event) : (emit e s).chRaw = s.chRaw := rfl
@[simp] theorem emit_ls (e : Event) : (emit e s).ls = s.ls := rfl
@[simp] theorem emit_gps (e : Event) : (emit e s).gps = s.gps := rfl
@[simp] theorem emit_bat (e : Event) : (emit e s).bat = s.bat := rfl
@[simp] theorem emit_att (e : Event) : (emit e s).att = s.att := rfl
@[simp] theorem emit_sens (e : Event) : (emit e s).sens = s.sens := rfl
@[simp] theorem emit_cfg (e : Event) : (emit e s).cfg = s.cfg := rfl
@[simp] theorem emit_events (e : Event) : (emit e s).events = s.events ++ [e] := rfl
@[simp] theorem emit_tx (e : Event) : (emit e s).tx = s.tx := rfl
@[simp] theorem emit_accepted (e : Event) : (emit e s).accepted = s.accepted := rfl
@[simp] theorem emit_host (e : Event) : (emit e s).host = s.host := rfl

@[simp] theorem transmit_rxBuf (bytes : List Byte) : (transmit bytes s).rxBuf = s.rxBuf := rfl
@[simp] theorem transmit_rxLen (bytes : List Byte) : (transmit bytes s).rxLen = s.rxLen := rfl
@[simp] theorem transmit_lastRxTime (bytes : List Byte) : (transmit bytes s).lastRxTime = s.lastRxTime := rfl
@[simp] theorem transmit_linkUp (bytes : List Byte) : (transmit bytes s).linkUp = s.linkUp := rfl
@[simp] theorem transmit_lastChTime (bytes : List Byte) : (transmit bytes s).lastChTime = s.lastChTime := rfl
@[simp] theorem transmit_passthrough (bytes : List Byte) : (transmit bytes s).passthrough = s.passthrough := rfl
@[simp] theorem transmit_chRaw (bytes : List Byte) : (transmit bytes s).chRaw = s.chRaw := rfl
@[simp] theorem transmit_ls (bytes : List Byte) : (transmit bytes s).ls = s.ls := rfl
@[simp] theorem transmit_gps (bytes : List Byte) : (transmit bytes s).gps = s.gps := rfl
@[simp] theorem transmit_bat (bytes : List Byte) : (transmit bytes s).bat = s.bat := rfl
@[simp] theorem transmit_att (bytes : List Byte) : (transmit bytes s).att = s.att := rfl
@[simp] theorem transmit_sens (bytes : List Byte) : (transmit bytes s).sens = s.sens := rfl
@[simp] theorem transmit_cfg (bytes : List Byte) : (transmit bytes s).cfg = s.cfg := rfl
@[simp] theorem transmit_events (bytes : List Byte) : (transmit bytes s).events = s.events := rfl
@[simp] theorem transmit_tx (bytes : List Byte) : (transmit bytes s).tx = s.tx ++ bytes := rfl
@[simp] theorem transmit_accepted (bytes : List Byte) : (transmit bytes s).accepted = s.accepted := rfl
@[simp] theorem transmit_host (bytes : List Byte) : (transmit bytes s).host = s.host := rfl

@[simp] theorem setAccepted_rxBuf (v : Bool) : (setAccepted v s).rxBuf = s.rxBuf := rfl
@[simp] theorem setAccepted_rxLen (v : Bool) : (setAccepted v s).rxLen = s.rxLen := rfl
@[simp] theorem setAccepted_lastRxTime (v : Bool) : (setAccepted v s).lastRxTime = s.lastRxTime := rfl
@[simp] theorem setAccepted_linkUp (v : Bool) : (setAccepted v s).linkUp = s.linkUp := rfl
@[simp] theorem setAccepted_lastChTime (v : Bool) : (setAccepted v s).lastChTime = s.lastChTime := rfl
@[simp] theorem setAccepted_passthrough (v : Bool) : (setAccepted v s).passthrough = s.passthrough := rfl
@[simp] theorem setAccepted_chRaw (v : Bool) : (setAccepted v s).chRaw = s.chRaw := rfl
@[simp] theorem setAccepted_ls (v : Bool) : (setAccepted v s).ls = s.ls := rfl
@[simp] theorem setAccepted_gps (v : Bool) : (setAccepted v s).gps = s.gps := rfl
@[simp] theorem setAccepted_bat (v : Bool) : (setAccepted v s).bat = s.bat := rfl
@[simp] theorem setAccepted_att (v : Bool) : (setAccepted v s).att = s.att := rfl
@[simp] theorem setAccepted_sens (v : Bool) : (setAccepted v s).sens = s.sens := rfl
@[simp] theorem setAccepted_cfg (v : Bool) : (setAccepted v s).cfg = s.cfg := rfl
@[simp] theorem setAccepted_events (v : Bool) : (setAccepted v s).events = s.events := rfl
@[simp] theorem setAccepted_tx (v : Bool) : (setAccepted v s).tx = s.tx := rfl
@[simp] theorem setAccepted_accepted (v : Bool) : (setAccepted v s).accepted = some v := rfl
@[simp] theorem setAccepted_host (v : Bool) : (setAccepted v s).host = s.host := rfl

@[simp] theorem append_rxBuf (b : Byte) : (append b s).rxBuf = s.rxBuf.write s.rxLen b := rfl
@[simp] theorem append_rxLen (b : Byte) : (append b s).rxLen = s.rxLen + 1 := rfl
@[simp] theorem append_lastRxTime (b : Byte) : (append b s).lastRxTime = s.lastRxTime := rfl
@[simp] theorem append_linkUp (b : Byte) : (append b s).linkUp = s.linkUp := rfl
@[simp] theorem append_lastChTime (b : Byte) : (append b s).lastChTime = s.lastChTime := rfl
@[simp] theorem append_passthrough (b : Byte) : (append b s).passthrough = s.passthrough := rfl
@[simp] theorem append_chRaw (b : Byte) : (append b s).chRaw = s.chRaw := rfl
@[simp] theorem append_ls (b : Byte) : (append b s).ls = s.ls := rfl
@[simp] theorem append_gps (b : Byte) : (append b s).gps = s.gps := rfl
@[simp] theorem append_bat (b : Byte) : (append b s).bat = s.bat := rfl
@[simp] theorem append_att (b : Byte) : (append b s).att = s.att := rfl
@[simp] theorem append_sens (b : Byte) : (append b s).sens = s.sens := rfl
@[simp] theorem append_cfg (b : Byte) : (append b s).cfg = s.cfg := rfl
@[simp] theorem append_events (b : Byte) : (append b s).events = s.events := rfl
@[simp] theorem append_tx (b : Byte) : (append b s).tx = s.tx := rfl
@[simp] theorem append_accepted (b : Byte) : (append b s).accepted = s.accepted := rfl
@[simp] theorem append_host (b : Byte) : (append b s).host = s.host := rfl

@[simp] theorem shift_rxBuf (n : Nat) : (shift n s).rxBuf = copyDown s.rxBuf n (s.rxLen - n) := rfl
@[simp] theorem shift_rxLen (n : Nat) : (shift n s).rxLen = s.rxLen - n := rfl
@[simp] theorem shift_lastRxTime (n : Nat) : (shift n s).lastRxTime = s.lastRxTime := rfl
@[simp] theorem shift_linkUp (n : Nat) : (shift n s).linkUp = s.linkUp := rfl
@[simp] theorem shift_lastChTime (n : Nat) : (shift n s).lastChTime = s.lastChTime := rfl
@[simp] theorem shift_passthrough (n : Nat) : (shift n s).passthrough = s.passthrough := rfl
@[simp] theorem shift_chRaw (n : Nat) : (shift n s).chRaw = s.chRaw := rfl
@[simp] theorem shift_ls (n : Nat) : (shift n s).ls = s.ls := rfl
@[simp] theorem shift_gps (n : Nat) : (shift n s).gps = s.gps := rfl
@[simp] theorem shift_bat (n : Nat) : (shift n s).bat = s.bat := rfl
@[simp] theorem shift_att (n : Nat) : (shift n s).att = s.att := rfl
@[simp] theorem shift_sens (n : Nat) : (shift n s).sens = s.sens := rfl
@[simp] theorem shift_cfg (n : Nat) : (shift n s).cfg = s.cfg := rfl
@[simp] theorem shift_events (n : Nat) : (shift n s).events = s.events := rfl
@[simp] theorem shift_tx (n : Nat) : (shift n s).tx = s.tx := rfl
@[simp] theorem shift_accepted (n : Nat) : (shift n s).accepted = s.accepted := rfl
@[simp] theorem shift_host (n : Nat) : (shift n s).host = s.host := rfl

@[simp] theorem bulkReset_rxBuf : (bulkReset s).rxBuf = s.rxBuf := rfl
@[simp] theorem bulkReset_rxLen : (bulkReset s).rxLen = 0 := rfl
@[simp] theorem bulkReset_lastRxTime : (bulkReset s).lastRxTime = s.lastRxTime := rfl
@[simp] theorem bulkReset_linkUp : (bulkReset s).linkUp = s.linkUp := rfl
@[simp] theorem bulkReset_lastChTime : (bulkReset s).lastChTime = s.lastChTime := rfl
@[simp] theorem bulkReset_passthrough : (bulkReset s).passthrough = s.passthrough := rfl
@[simp] theorem bulkReset_chRaw : (bulkReset s).chRaw = s.chRaw := rfl
@[simp] theorem bulkReset_ls : (bulkReset s).ls = s.ls := rfl
@[simp] theorem bulkReset_gps : (bulkReset s).gps = s.gps := rfl
@[simp] theorem bulkReset_bat : (bulkReset s).bat = s.bat := rfl
@[simp] theorem bulkReset_att : (bulkReset s).att = s.att := rfl
@[simp] theorem bulkReset_sens : (bulkReset s).sens = s.sens := rfl
@[simp] theorem bulkReset_cfg : (bulkReset s).cfg = s.cfg := rfl
@[simp] theorem bulkReset_events : (bulkReset s).events = s.events := rfl
@[simp] theorem bulkReset_tx : (bulkReset s).tx = s.tx := rfl
@[simp] theorem bulkReset_accepted : (bulkReset s).accepted = s.accepted := rfl
@[simp] theorem bulkReset_host : (bulkReset s).host = s.host := rfl

@[simp] theorem stampRx_rxBuf (now : Nat) : (stampRx now s).rxBuf = s.rxBuf := rfl
@[simp] theorem stampRx_rxLen (now : Nat) : (stampRx now s).rxLen = s.rxLen := rfl
@[simp] theorem stampRx_lastRxTime (now : Nat) : (stampRx now s).lastRxTime = now := rfl
@[simp] theorem stampRx_linkUp (now : Nat) : (stampRx now s).linkUp = s.linkUp := rfl
@[simp] theorem stampRx_lastChTime (now : Nat) : (stampRx now s).lastChTime = s.lastChTime := rfl
@[simp] theorem stampRx_passthrough (now : Nat) : (stampRx now s).passthrough = s.passthrough := rfl
@[simp] theorem stampRx_chRaw (now : Nat) : (stampRx now s).chRaw = s.chRaw := rfl
@[simp] theorem stampRx_ls (now : Nat) : (stampRx now s).ls = s.ls := rfl
@[simp] theorem stampRx_gps (now : Nat) : (stampRx now s).gps = s.gps := rfl
@[simp] theorem stampRx_bat (now : Nat) : (stampRx now s).bat = s.bat := rfl
@[simp] theorem stampRx_att (now : Nat) : (stampRx now s).att = s.att := rfl
@[simp] theorem stampRx_sens (now : Nat) : (stampRx now s).sens = s.sens := rfl
@[simp] theorem stampRx_cfg (now : Nat) : (stampRx now s).cfg = s.cfg := rfl
@[simp] theorem stampRx_events (now : Nat) : (stampRx now s).events = s.events := rfl
@[simp] theorem stampRx_tx (now : Nat) : (stampRx now s).tx = s.tx := rfl
@[simp] theorem stampRx_accepted (now : Nat) : (stampRx now s).accepted = s.accepted := rfl
@[simp] theorem stampRx_host (now : Nat) : (stampRx now s).host = s.host := rfl

@[simp] theorem issue_rxBuf : (issue s).rxBuf = s.rxBuf := rfl
@[simp] theorem issue_rxLen : (issue s).rxLen = s.rxLen := rfl
@[simp] theorem issue_lastRxTime : (issue s).lastRxTime = s.lastRxTime := rfl
@[simp] theorem issue_linkUp : (issue s).linkUp = s.linkUp := rfl
@[simp] theorem issue_lastChTime : (issue s).lastChTime = s.lastChTime := rfl
@[simp] theorem issue_passthrough : (issue s).passthrough = s.passthrough := rfl
@[simp] theorem issue_chRaw : (issue s).chRaw = s.chRaw := rfl
@[simp] theorem issue_ls : (issue s).ls = s.ls := rfl
@[simp] theorem issue_gps : (issue s).gps = s.gps := rfl
@[simp] theorem issue_bat : (issue s).bat = s.bat := rfl
@[simp] theorem issue_att : (issue s).att = s.att := rfl
@[simp] theorem issue_sens : (issue s).sens = s.sens := rfl
@[simp] theorem issue_cfg : (issue s).cfg = s.cfg := rfl
@[simp] theorem issue_events : (issue s).events = [] := rfl
@[simp] theorem issue_tx : (issue s).tx = [] := rfl
@[simp] theorem issue_accepted : (issue s).accepted = none := rfl
@[simp] theorem issue_host : (issue s).host = s.host.tail := rfl

@[simp] theorem setLinkUp_rxBuf (v : Bool) : (setLinkUp v s).rxBuf = s.rxBuf := rfl
@[simp] theorem setLinkUp_rxLen (v : Bool) : (setLinkUp v s).rxLen = s.rxLen := rfl
@[simp] theorem setLinkUp_lastRxTime (v : Bool) : (setLinkUp v s).lastRxTime = s.lastRxTime := rfl
@[simp] theorem setLinkUp_linkUp (v : Bool) : (setLinkUp v s).linkUp = v := rfl
@[simp] theorem setLinkUp_lastChTime (v : Bool) : (setLinkUp v s).lastChTime = s.lastChTime := rfl
@[simp] theorem setLinkUp_passthrough (v : Bool) : (setLinkUp v s).passthrough = s.passthrough := rfl
@[simp] theorem setLinkUp_chRaw (v : Bool) : (setLinkUp v s).chRaw = s.chRaw := rfl
@[simp] theorem setLinkUp_ls (v : Bool) : (setLinkUp v s).ls = s.ls := rfl
@[simp] theorem setLinkUp_gps (v : Bool) : (setLinkUp v s).gps = s.gps := rfl
@[simp] theorem setLinkUp_bat (v : Bool) : (setLinkUp v s).bat = s.bat := rfl
@[simp] theorem setLinkUp_att (v : Bool) : (setLinkUp v s).att = s.att := rfl
@[simp] theorem setLinkUp_sens (v : Bool) : (setLinkUp v s).sens = s.sens := rfl
@[simp] theorem setLinkUp_cfg (v : Bool) : (setLinkUp v s).cfg = s.cfg := rfl
@[simp] theorem setLinkUp_events (v : Bool) : (setLinkUp v s).events = s.events := rfl
@[simp] theorem setLinkUp_tx (v : Bool) : (setLinkUp v s).tx = s.tx := rfl
@[simp] theorem setLinkUp_accepted (v : Bool) : (setLinkUp v s).accepted = s.accepted := rfl
@[simp] theorem setLinkUp_host (v : Bool) : (setLinkUp v s).host = s.host := rfl

@[simp] theorem stampCh_rxBuf (now : Nat) : (stampCh now s).rxBuf = s.rxBuf := rfl
@[simp] theorem stampCh_rxLen (now : Nat) : (stampCh now s).rxLen = s.rxLen := rfl
@[simp] theorem stampCh_lastRxTime (now : Nat) : (stampCh now s).lastRxTime = s.lastRxTime := rfl
@[simp] theorem stampCh_linkUp (now : Nat) : (stampCh now s).linkUp = s.linkUp := rfl
@[simp] theorem stampCh_lastChTime (now : Nat) : (stampCh now s).lastChTime = now := rfl
@[simp] theorem stampCh_passthrough (now : Nat) : (stampCh now s).passthrough = s.passthrough := rfl
@[simp] theorem stampCh_chRaw (now : Nat) : (stampCh now s).chRaw = s.chRaw := rfl
@[simp] theorem stampCh_ls (now : Nat) : (stampCh now s).ls = s.ls := rfl
@[simp] theorem stampCh_gps (now : Nat) : (stampCh now s).gps = s.gps := rfl
@[simp] theorem stampCh_bat (now : Nat) : (stampCh now s).bat = s.bat := rfl
@[simp] theorem stampCh_att (now : Nat) : (stampCh now s).att = s.att := rfl
@[simp] theorem stampCh_sens (now : Nat) : (stampCh now s).sens = s.sens := rfl
@[simp] theorem stampCh_cfg (now : Nat) : (stampCh now s).cfg = s.cfg := rfl
@[simp] theorem stampCh_events (now : Nat) : (stampCh now s).events = s.events := rfl
@[simp] theorem stampCh_tx (now : Nat) : (stampCh now s).tx = s.tx := rfl
@[simp] theorem stampCh_accepted (now : Nat) : (stampCh now s).accepted = s.accepted := rfl
@[simp] theorem stampCh_host (now : Nat) : (stampCh now s).host = s.host := rfl

@[simp] theorem setPassthrough_rxBuf (v : Bool) : (setPassthrough v s).rxBuf = s.rxBuf := rfl
@[simp] theorem setPassthrough_rxLen (v : Bool) : (setPassthrough v s).rxLen = s.rxLen := rfl
@[simp] theorem setPassthrough_lastRxTime (v : Bool) : (setPassthrough v s).lastRxTime = s.lastRxTime := rfl
@[simp] theorem setPassthrough_linkUp (v : Bool) : (setPassthrough v s).linkUp = s.linkUp := rfl
@[simp] theorem setPassthrough_lastChTime (v : Bool) : (setPassthrough v s).lastChTime = s.lastChTime := rfl
@[simp] theorem setPassthrough_passthrough (v : Bool) : (setPassthrough v s).passthrough = v := rfl
@[simp] theorem setPassthrough_chRaw (v : Bool) : (setPassthrough v s).chRaw = s.chRaw := rfl
@[simp] theorem setPassthrough_ls (v : Bool) : (setPassthrough v s).ls = s.ls := rfl
@[simp] theorem setPassthrough_gps (v : Bool) : (setPassthrough v s).gps = s.gps := rfl
@[simp] theorem setPassthrough_bat (v : Bool) : (setPassthrough v s).bat = s.bat := rfl
@[simp] theorem setPassthrough_att (v : Bool) : (setPassthrough v s).att = s.att := rfl
@[simp] theorem setPassthrough_sens (v : Bool) : (setPassthrough v s).sens = s.sens := rfl
@[simp] theorem setPassthrough_cfg (v : Bool) : (setPassthrough v s).cfg = s.cfg := rfl
@[simp] theorem setPassthrough_events (v : Bool) : (setPassthrough v s).events = s.events := rfl
@[simp] theorem setPassthrough_tx (v : Bool) : (setPassthrough v s).tx = s.tx := rfl
@[simp] theorem setPassthrough_accepted (v : Bool) : (setPassthrough v s).accepted = s.accepted := rfl
@[simp] theorem setPassthrough_host (v : Bool) : (setPassthrough v s).host = s.host := rfl

@[simp] theorem setChRaw_rxBuf (v : ChannelSet) : (setChRaw v s).rxBuf = s.rxBuf := rfl
@[simp] theorem setChRaw_rxLen (v : ChannelSet) : (setChRaw v s).rxLen = s.rxLen := rfl
@[simp] theorem setChRaw_lastRxTime (v : ChannelSet) : (setChRaw v s).lastRxTime = s.lastRxTime := rfl
@[simp] theorem setChRaw_linkUp (v : ChannelSet) : (setChRaw v s).linkUp = s.linkUp := rfl
@[simp] theorem setChRaw_lastChTime (v : ChannelSet) : (setChRaw v s).lastChTime = s.lastChTime := rfl
@[simp] theorem setChRaw_passthrough (v : ChannelSet) : (setChRaw v s).passthrough = s.passthrough := rfl
@[simp] theorem setChRaw_chRaw (v : ChannelSet) : (setChRaw v s).chRaw = some v := rfl
@[simp] theorem setChRaw_ls (v : ChannelSet) : (setChRaw v s).ls = s.ls := rfl
@[simp] theorem setChRaw_gps (v : ChannelSet) : (setChRaw v s).gps = s.gps := rfl
@[simp] theorem setChRaw_bat (v : ChannelSet) : (setChRaw v s).bat = s.bat := rfl
@[simp] theorem setChRaw_att (v : ChannelSet) : (setChRaw v s).att = s.att := rfl
@[simp] theorem setChRaw_sens (v : ChannelSet) : (setChRaw v s).sens = s.sens := rfl
@[simp] theorem setChRaw_cfg (v : ChannelSet) : (setChRaw v s).cfg = s.cfg := rfl
@[simp] theorem setChRaw_events (v : ChannelSet) : (setChRaw v s).events = s.events := rfl
@[simp] theorem setChRaw_tx (v : ChannelSet) : (setChRaw v s).tx = s.tx := rfl
@[simp] theorem setChRaw_accepted (v : ChannelSet) : (setChRaw v s).accepted = s.accepted := rfl
@[simp] theorem setChRaw_host (v : ChannelSet) : (setChRaw v s).host = s.host := rfl

@[simp] theorem setLs_rxBuf (r : LinkStats) : (setLs r s).rxBuf = s.rxBuf := rfl
@[simp] theorem setLs_rxLen (r : LinkStats) : (setLs r s).rxLen = s.rxLen := rfl
@[simp] theorem setLs_lastRxTime (r : LinkStats) : (setLs r s).lastRxTime = s.lastRxTime := rfl
@[simp] theorem setLs_linkUp (r : LinkStats) : (setLs r s).linkUp = s.linkUp := rfl
@[simp] theorem setLs_lastChTime (r : LinkStats) : (setLs r s).lastChTime = s.lastChTime := rfl
@[simp] theorem setLs_passthrough (r : LinkStats) : (setLs r s).passthrough = s.passthrough := rfl
@[simp] theorem setLs_chRaw (r : LinkStats) : (setLs r s).chRaw = s.chRaw := rfl
@[simp] theorem setLs_ls (r : LinkStats) : (setLs r s).ls = some r := rfl
@[simp] theorem setLs_gps (r : LinkStats) : (setLs r s).gps = s.gps := rfl
@[simp] theorem setLs_bat (r : LinkStats) : (setLs r s).bat = s.bat := rfl
@[simp] theorem setLs_att (r : LinkStats) : (setLs r s).att = s.att := rfl
@[simp] theorem setLs_sens (r : LinkStats) : (setLs r s).sens = s.sens := rfl
@[simp] theorem setLs_cfg (r : LinkStats) : (setLs r s).cfg = s.cfg := rfl
@[simp] theorem setLs_events (r : LinkStats) : (setLs r s).events = s.events := rfl
@[simp] theorem setLs_tx (r : LinkStats) : (setLs r s).tx = s.tx := rfl
@[simp] theorem setLs_accepted (r : LinkStats) : (setLs r s).accepted = s.accepted := rfl
@[simp] theorem setLs_host (r : LinkStats) : (setLs r s).host = s.host := rfl

@[simp] theorem setGps_rxBuf (r : Gps) : (setGps r s).rxBuf = s.rxBuf := rfl
@[simp] theorem setGps_rxLen (r : Gps) : (setGps r s).rxLen = s.rxLen := rfl
@[simp] theorem setGps_lastRxTime (r : Gps) : (setGps r s).lastRxTime = s.lastRxTime := rfl
@[simp] theorem setGps_linkUp (r : Gps) : (setGps r s).linkUp = s.linkUp := rfl
@[simp] theorem setGps_lastChTime (r : Gps) : (setGps r s).lastChTime = s.lastChTime := rfl
@[simp] theorem setGps_passthrough (r : Gps) : (setGps r s).passthrough = s.passthrough := rfl
@[simp] theorem setGps_chRaw (r : Gps) : (setGps r s).chRaw = s.chRaw := rfl
@[simp] theorem setGps_ls (r : Gps) : (setGps r s).ls = s.ls := rfl
@[simp] theorem setGps_gps (r : Gps) : (setGps r s).gps = some r := rfl
@[simp] theorem setGps_bat (r : Gps) : (setGps r s).bat = s.bat := rfl
@[simp] theorem setGps_att (r : Gps) : (setGps r s).att = s.att := rfl
@[simp] theorem setGps_sens (r : Gps) : (setGps r s).sens = s.sens := rfl
@[simp] theorem setGps_cfg (r : Gps) : (setGps r s).cfg = s.cfg := rfl
@[simp] theorem setGps_events (r : Gps) : (setGps r s).events = s.events := rfl
@[simp] theorem setGps_tx (r : Gps) : (setGps r s).tx = s.tx := rfl
@[simp] theorem setGps_accepted (r : Gps) : (setGps r s).accepted = s.accepted := rfl
@[simp] theorem setGps_host (r : Gps) : (setGps r s).host = s.host := rfl

@[simp] theorem setBat_rxBuf (r : Battery) : (setBat r s).rxBuf = s.rxBuf := rfl
@[simp] theorem setBat_rxLen (r : Battery) : (setBat r s).rxLen = s.rxLen := rfl
@[simp] theorem setBat_lastRxTime (r : Battery) : (setBat r s).lastRxTime = s.lastRxTime := rfl
@[simp] theorem setBat_linkUp (r : Battery) : (setBat r s).linkUp = s.linkUp := rfl
@[simp] theorem setBat_lastChTime (r : Battery) : (setBat r s).lastChTime = s.lastChTime := rfl
@[simp] theorem setBat_passthrough (r : Battery) : (setBat r s).passthrough = s.passthrough := rfl
@[simp] theorem setBat_chRaw (r : Battery) : (setBat r s).chRaw = s.chRaw := rfl
@[simp] theorem setBat_ls (r : Battery) : (setBat r s).ls = s.ls := rfl
@[simp] theorem setBat_gps (r : Battery) : (setBat r s).gps = s.gps := rfl
@[simp] theorem setBat_bat (r : Battery) : (setBat r s).bat = some r := rfl
@[simp] theorem setBat_att (r : Battery) : (setBat r s).att = s.att := rfl
@[simp] theorem setBat_sens (r : Battery) : (setBat r s).sens = s.sens := rfl
@[simp] theorem setBat_cfg (r : Battery) : (setBat r s).cfg = s.cfg := rfl
@[simp] theorem setBat_events (r : Battery) : (setBat r s).events = s.events := rfl
@[simp] theorem setBat_tx (r : Battery) : (setBat r s).tx = s.tx := rfl
@[simp] theorem setBat_accepted (r : Battery) : (setBat r s).accepted = s.accepted := rfl
@[simp] theorem setBat_host (r : Battery) : (setBat r s).host = s.host := rfl

@[simp] theorem setAtt_rxBuf (r : Attitude) : (setAtt r s).rxBuf = s.rxBuf := rfl
@[simp] theorem setAtt_rxLen (r : Attitude) : (setAtt r s).rxLen = s.rxLen := rfl
@[simp] theorem setAtt_lastRxTime (r : Attitude) : (setAtt r s).lastRxTime = s.lastRxTime := rfl
@[simp] theorem setAtt_linkUp (r : Attitude) : (setAtt r s).linkUp = s.linkUp := rfl
@[simp] theorem setAtt_lastChTime (r : Attitude) : (setAtt r s).lastChTime = s.lastChTime := rfl
@[simp] theorem setAtt_passthrough (r : Attitude) : (setAtt r s).passthrough = s.passthrough := rfl
@[simp] theorem setAtt_chRaw (r : Attitude) : (setAtt r s).chRaw = s.chRaw := rfl
@[simp] theorem setAtt_ls (r : Attitude) : (setAtt r s).ls = s.ls := rfl
@[simp] theorem setAtt_gps (r : Attitude) : (setAtt r s).gps = s.gps := rfl
@[simp] theorem setAtt_bat (r : Attitude) : (setAtt r s).bat = s.bat := rfl
@[simp] theorem setAtt_att (r : Attitude) : (setAtt r s).att = some r := rfl
@[simp] theorem setAtt_sens (r : Attitude) : (setAtt r s).sens = s.sens := rfl
@[simp] theorem setAtt_cfg (r : Attitude) : (setAtt r s).cfg = s.cfg := rfl
@[simp] theorem setAtt_events (r : Attitude) : (setAtt r s).events = s.events := rfl
@[simp] theorem setAtt_tx (r : Attitude) : (setAtt r s).tx = s.tx := rfl
@[simp] theorem setAtt_accepted (r : Attitude) : (setAtt r s).accepted = s.accepted := rfl
@[simp] theorem setAtt_host (r : Attitude) : (setAtt r s).host = s.host := rfl

@[simp] theorem setSens_rxBuf (x : SensorId) (r : SensorRec) : (setSens x r s).rxBuf = s.rxBuf := rfl
@[simp] theorem setSens_rxLen (x : SensorId) (r : SensorRec) : (setSens x r s).rxLen = s.rxLen := rfl
@[simp] theorem setSens_lastRxTime (x : SensorId) (r : SensorRec) : (setSens x r s).lastRxTime = s.lastRxTime := rfl
@[simp] theorem setSens_linkUp (x : SensorId) (r : SensorRec) : (setSens x r s).linkUp = s.linkUp := rfl
@[simp] theorem setSens_lastChTime (x : SensorId) (r : SensorRec) : (setSens x r s).lastChTime = s.lastChTime := rfl
@[simp] theorem setSens_passthrough (x : SensorId) (r : SensorRec) : (setSens x r s).passthrough = s.passthrough := rfl
@[simp] theorem setSens_chRaw (x : SensorId) (r : SensorRec) : (setSens x r s).chRaw = s.chRaw := rfl
@[simp] theorem setSens_ls (x : SensorId) (r : SensorRec) : (setSens x r s).ls = s.ls := rfl
@[simp] theorem setSens_gps (x : SensorId) (r : SensorRec) : (setSens x r s).gps = s.gps := rfl
@[simp] theorem setSens_bat (x : SensorId) (r : SensorRec) : (setSens x r s).bat = s.bat := rfl
@[simp] theorem setSens_att (x : SensorId) (r : SensorRec) : (setSens x r s).att = s.att := rfl
@[simp] theorem setSens_sens (x : SensorId) (r : SensorRec) : (setSens x r s).sens = s.sens.set x (some r) := rfl
@[simp] theorem setSens_cfg (x : SensorId) (r : SensorRec) : (setSens x r s).cfg = s.cfg := rfl
@[simp] theorem setSens_events (x : SensorId) (r : SensorRec) : (setSens x r s).events = s.events := rfl
@[simp] theorem setSens_tx (x : SensorId) (r : SensorRec) : (setSens x r s).tx = s.tx := rfl
@[simp] theorem setSens_accepted (x : SensorId) (r : SensorRec) : (setSens x r s).accepted = s.accepted := rfl
@[simp] theorem setSens_host (x : SensorId) (r : SensorRec) : (setSens x r s).host = s.host := rfl

@[simp] theorem clearRecords_rxBuf : (clearRecords s).rxBuf = s.rxBuf := rfl
@[simp] theorem clearRecords_rxLen : (clearRecords s).rxLen = s.rxLen := rfl
@[simp] theorem clearRecords_lastRxTime : (clearRecords s).lastRxTime = s.lastRxTime := rfl
@[simp] theorem clearRecords_linkUp : (clearRecords s).linkUp = s.linkUp := rfl
@[simp] theorem clearRecords_lastChTime : (clearRecords s).lastChTime = s.lastChTime := rfl
@[simp] theorem clearRecords_passthrough : (clearRecords s).passthrough = s.passthrough := rfl
@[simp] theorem clearRecords_chRaw : (clearRecords s).chRaw = none := rfl
@[simp] theorem clearRecords_ls : (clearRecords s).ls = none := rfl
@[simp] theorem clearRecords_gps : (clearRecords s).gps = none := rfl
@[simp] theorem clearRecords_bat : (clearRecords s).bat = none := rfl
@[simp] theorem clearRecords_att : (clearRecords s).att = none := rfl
@[simp] theorem clearRecords_sens : (clearRecords s).sens = .all none := rfl
@[simp] theorem clearRecords_cfg : (clearRecords s).cfg = s.cfg := rfl
@[simp] theorem clearRecords_events : (clearRecords s).events = s.events := rfl
@[simp] theorem clearRecords_tx : (clearRecords s).tx = s.tx := rfl
@[simp] theorem clearRecords_accepted : (clearRecords s).accepted = s.accepted := rfl
@[simp] theorem clearRecords_host : (clearRecords s).host = s.host := rfl

@[simp] theorem withCommand_rxBuf (packet : List Byte) : (withCommand packet s).rxBuf = s.rxBuf := rfl
@[simp] theorem withCommand_rxLen (packet : List Byte) : (withCommand packet s).rxLen = s.rxLen := rfl
@[simp] theorem withCommand_lastRxTime (packet : List Byte) : (withCommand packet s).lastRxTime = s.lastRxTime := rfl
@[simp] theorem withCommand_linkUp (packet : List Byte) : (withCommand packet s).linkUp = s.linkUp := rfl
@[simp] theorem withCommand_lastChTime (packet : List Byte) : (withCommand packet s).lastChTime = s.lastChTime := rfl
@[simp] theorem withCommand_passthrough (packet : List Byte) : (withCommand packet s).passthrough = s.passthrough := rfl
@[simp] theorem withCommand_chRaw (packet : List Byte) : (withCommand packet s).chRaw = s.chRaw := rfl
@[simp] theorem withCommand_ls (packet : List Byte) : (withCommand packet s).ls = s.ls := rfl
@[simp] theorem withCommand_gps (packet : List Byte) : (withCommand packet s).gps = s.gps := rfl
@[simp] theorem withCommand_bat (packet : List Byte) : (withCommand packet s).bat = s.bat := rfl
@[simp] theorem withCommand_att (packet : List Byte) : (withCommand packet s).att = s.att := rfl
@[simp] theorem withCommand_sens (packet : List Byte) : (withCommand packet s).sens = s.sens := rfl
@[simp] theorem withCommand_cfg (packet : List Byte) : (withCommand packet s).cfg = s.cfg := rfl
@[simp] theorem withCommand_events (packet : List Byte) : (withCommand packet s).events = s.events := rfl
@[simp] theorem withCommand_tx (packet : List Byte) : (withCommand packet s).tx = s.tx := rfl
@[simp] theorem withCommand_accepted (packet : List Byte) : (withCommand packet s).accepted = s.accepted := rfl
@[simp] theorem withCommand_host (packet : List Byte) : (withCommand packet s).host = packet :: s.host := rfl

@[simp] theorem discard1_rxBuf : (discard1 s).rxBuf = copyDown s.rxBuf 1 (s.rxLen - 1) := rfl
@[simp] theorem discard1_rxLen : (discard1 s).rxLen = s.rxLen - 1 := rfl
@[simp] theorem discard1_lastRxTime : (discard1 s).lastRxTime = s.lastRxTime := rfl
@[simp] theorem discard1_linkUp : (discard1 s).linkUp = s.linkUp := rfl
@[simp] theorem discard1_lastChTime : (discard1 s).lastChTime = s.lastChTime := rfl
@[simp] theorem discard1_passthrough : (discard1 s).passthrough = s.passthrough := rfl
@[simp] theorem discard1_chRaw : (discard1 s).chRaw = s.chRaw := rfl
@[simp] theorem discard1_ls : (discard1 s).ls = s.ls := rfl
@[simp] theorem discard1_gps : (discard1 s).gps = s.gps := rfl
@[simp] theorem discard1_bat : (discard1 s).bat = s.bat := rfl
@[simp] theorem discard1_att : (discard1 s).att = s.att := rfl
@[simp] theorem discard1_sens : (discard1 s).sens = s.sens := rfl
@[simp] theorem discard1_cfg : (discard1 s).cfg = s.cfg := rfl
@[simp] theorem discard1_events : (discard1 s).events = s.events ++ [.oob (rxByte s 0)] := rfl
@[simp] theorem discard1_tx : (discard1 s).tx = s.tx := rfl
@[simp] theorem discard1_accepted : (discard1 s).accepted = s.accepted := rfl
@[simp] theorem discard1_host : (discard1 s).host = s.host := rfl

@[simp] theorem PerSensor_get_set_same {α : Type} (p : PerSensor α) (x : SensorId) (v : α) : (p.set x v).get x = v := by
  cases x <;> rfl

theorem PerSensor_get_set_other {α : Type} (p : PerSensor α) (x y : SensorId) (v : α) (h : y ≠ x) :
    (p.set x v).get y = p.get y := by
  cases x <;> cases y <;> first | rfl | exact absurd rfl h

@[simp] theorem PerSensor_get_all {α : Type} (v : α) (x : SensorId) : (PerSensor.all v).get x = v := by cases x <;> rfl

end Sys2Proof.Machine
end

