-- ==== Sys2Proof/Laws/Memory.lean ====
section
/-! SUPPORT. The receive buffer as memory: read after write, the canonical form kept by every operation, the address space
kept, and what `SHIFT`'s copy loop does (R50 to R54). -/

namespace Sys2Proof.Machine

theorem Memory.read_of_below (m : Memory) (a : Nat) (h : m.all (fun c => decide (a < c.1)) = true) :
    m.read a = Memory.unlisted := by
  induction m with
  | nil => rfl
  | cons c m ih =>
    obtain ⟨k, b⟩ := c
    simp only [List.all_cons, Bool.and_eq_true, decide_eq_true_eq] at h
    simp [Memory.read, show k ≠ a by omega, ih h.2]

/-- Reading after a write, at any address. -/
theorem Memory.read_write (m : Memory) (a b : Nat) (v : Byte) (h : m.wf = true) :
    (m.write a v).read b = if b = a then v else m.read b := by
  induction m with
  | nil =>
    by_cases hv : v = Memory.unlisted <;> by_cases hb : b = a <;> simp_all [Memory.write, Memory.read]
    intro h'; exact absurd h'.symm hb
  | cons c m ih =>
    obtain ⟨k, w⟩ := c
    simp only [Memory.wf, Bool.and_eq_true, decide_eq_true_eq] at h
    obtain ⟨⟨hw, hall⟩, hm⟩ := h
    have ih := ih hm
    by_cases h1 : a < k
    · have hk : ∀ v', Memory.read ((k, w) :: m) a = v' ↔ Memory.unlisted = v' := by
        intro v'
        have : Memory.read ((k, w) :: m) a = Memory.unlisted := by
          refine Memory.read_of_below _ _ ?_
          simp only [List.all_cons, Bool.and_eq_true, decide_eq_true_eq]
          refine ⟨h1, ?_⟩
          rw [List.all_eq_true] at hall ⊢
          intro x hx
          have := hall x hx
          simp only [decide_eq_true_eq] at this ⊢
          omega
        rw [this]
      by_cases hv : v = Memory.unlisted
      · simp only [Memory.write, h1, hv, ↓reduceIte]
        by_cases hb : b = a
        · subst hb; simpa using (hk Memory.unlisted).mpr rfl
        · simp [hb]
      · simp only [Memory.write, h1, hv, ↓reduceIte]
        by_cases hb : b = a
        · simp [Memory.read, hb]
        · simp [Memory.read, hb, Ne.symm hb]
    · by_cases h2 : a = k
      · subst h2
        by_cases hv : v = Memory.unlisted
        · simp only [Memory.write, hv, ↓reduceIte, lt_irrefl]
          by_cases hb : b = a
          · subst hb; simpa using Memory.read_of_below _ _ hall
          · simp [Memory.read, hb, Ne.symm hb]
        · simp only [Memory.write, hv, ↓reduceIte, lt_irrefl, Memory.read]
          by_cases hb : b = a
          · simp [hb]
          · simp [hb, Ne.symm hb]
      · simp only [Memory.write, h1, h2, ↓reduceIte, Memory.read, ih]
        by_cases hb : b = a
        · simp [hb]; omega
        · simp [hb]

theorem Memory.all_write (m : Memory) (a : Nat) (v : Byte) (f : Host.Cell → Bool)
    (h : m.all f = true) (ha : f (a, v) = true) : (m.write a v).all f = true := by
  induction m with
  | nil => by_cases hv : v = Memory.unlisted <;> simp [Memory.write, hv, ← ha]
  | cons c m ih =>
    obtain ⟨k, w⟩ := c
    simp only [List.all_cons, Bool.and_eq_true] at h
    simp only [Memory.write]
    split
    · split <;> simp [h.1, h.2, ha]
    · split
      · split <;> simp [h.2, ha]
      · simp [h.1, ih h.2]

/-- A write keeps the canonical form. -/
theorem Memory.wf_write (m : Memory) (a : Nat) (v : Byte) (h : m.wf = true) : (m.write a v).wf = true := by
  induction m with
  | nil => by_cases hv : v = Memory.unlisted <;> simp [Memory.write, Memory.wf, hv]
  | cons c m ih =>
    obtain ⟨k, w⟩ := c
    have h0 := h
    simp only [Memory.wf, Bool.and_eq_true, decide_eq_true_eq] at h
    obtain ⟨⟨hw, hall⟩, hm⟩ := h
    simp only [Memory.write]
    split
    next hlt =>
      split
      · exact h0
      next hv =>
        rw [Memory.wf, h0]
        simp only [List.all_cons, hlt, decide_true, Bool.true_and, Bool.and_true, ne_eq, hv, not_false_eq_true]
        rw [List.all_eq_true] at hall ⊢
        intro x hx
        have := hall x hx
        simp only [decide_eq_true_eq] at this ⊢
        omega
    next hlt =>
      split
      next heq =>
        split
        · exact hm
        next hv => subst heq; simp [Memory.wf, hv, hall, hm]
      next hne =>
        have hka : k < a := by omega
        simp only [Memory.wf, ih hm, Bool.and_true, Bool.and_eq_true, decide_eq_true_eq]
        exact ⟨hw, Memory.all_write _ _ _ _ hall (by simpa using hka)⟩

theorem Memory.inside_write (cap : Nat) (m : Memory) (a : Nat) (v : Byte) (h : m.inside cap = true) (ha : a < cap) :
    (m.write a v).inside cap = true := Memory.all_write _ _ _ _ h (by simpa using ha)

/-- What the copy loop of `SHIFT(n)` leaves: the low `k` bytes are those `n` higher, the others as before (R52). -/
theorem copyDown_spec (m : Memory) (n k : Nat) (h : m.wf = true) :
    (copyDown m n k).wf = true ∧ ∀ a, (copyDown m n k).read a = if a < k then m.read (a + n) else m.read a := by
  induction k with
  | zero => simp [copyDown, h]
  | succ k ih =>
    obtain ⟨hwf, hr⟩ := ih
    refine ⟨Memory.wf_write _ _ _ hwf, fun a => ?_⟩
    simp only [copyDown]
    rw [Memory.read_write _ _ _ _ hwf, hr (k + n), hr a]
    by_cases hak : a = k
    · subst hak; simp
    · by_cases h1 : a < k
      · simp [hak, h1, show a < k + 1 by omega]
      · simp [hak, h1, show ¬ a < k + 1 by omega]

theorem copyDown_inside (cap : Nat) (m : Memory) (n k : Nat) (h : m.inside cap = true) (hk : k ≤ cap) :
    (copyDown m n k).inside cap = true := by
  induction k with
  | zero => simpa [copyDown] using h
  | succ k ih => exact Memory.inside_write _ _ _ _ (ih (by omega)) (by omega)

theorem memStore_spec (bs : List Byte) (m : Memory) (a : Nat) (h : m.wf = true) :
    (memStore m a bs).wf = true ∧
      ∀ k, (memStore m a bs).read k = if a ≤ k ∧ k < a + bs.length then bs.getD (k - a) 0 else m.read k := by
  induction bs generalizing m a with
  | nil => exact ⟨h, fun k => by simp [memStore]⟩
  | cons b bs ih =>
    obtain ⟨hwf, hr⟩ := ih (m.write a b) (a + 1) (Memory.wf_write _ _ _ h)
    refine ⟨hwf, fun k => ?_⟩
    simp only [memStore]
    rw [hr k, Memory.read_write _ _ _ _ h]
    by_cases hk : k = a
    · subst hk; simp
    · by_cases h1 : a + 1 ≤ k ∧ k < a + 1 + bs.length
      · have h2 : a ≤ k ∧ k < a + (b :: bs).length := by simp; omega
        rw [if_pos h1, if_pos h2]
        obtain ⟨j, hj⟩ : ∃ j, k - a = j + 1 := ⟨k - a - 1, by omega⟩
        rw [show k - (a + 1) = j by omega, hj]; simp
      · have h2 : ¬ (a ≤ k ∧ k < a + (b :: bs).length) := by simp; omega
        rw [if_neg h1, if_neg h2, if_neg hk]

@[simp] theorem memRead_length (m : Memory) (a n : Nat) : (memRead m a n).length = n := by simp [memRead]

theorem memRead_getElem (m : Memory) (a n i : Nat) (h : i < (memRead m a n).length) :
    (memRead m a n)[i] = m.read (a + i) := by simp [memRead]

/-- Two reads of the same bytes agree. -/
theorem memRead_congr (m m' : Memory) (a a' n : Nat) (h : ∀ i, i < n → m.read (a + i) = m'.read (a' + i)) :
    memRead m a n = memRead m' a' n := by
  refine List.ext_getElem (by simp) fun i h1 h2 => ?_
  rw [memRead_getElem, memRead_getElem]
  exact h i (by simpa using h1)

theorem memRead_succ (m : Memory) (a n : Nat) : memRead m a (n + 1) = memRead m a n ++ [m.read (a + n)] := by
  simp [memRead, List.range_succ]

theorem memRead_cons (m : Memory) (a n : Nat) : memRead m a (n + 1) = m.read a :: memRead m (a + 1) n := by
  refine List.ext_getElem (by simp) fun i h1 h2 => ?_
  rw [memRead_getElem]
  cases i with
  | zero => simp
  | succ i => simp [memRead_getElem]; congr 1; omega

theorem memRead_take_drop (m : Memory) (a n k j : Nat) (h : j + k ≤ n) :
    ((memRead m a n).drop j).take k = memRead m (a + j) k := by
  refine List.ext_getElem (by simp; omega) fun i h1 h2 => ?_
  simp [memRead_getElem, Nat.add_assoc]

end Sys2Proof.Machine
end

