-- ==== Sys2Proof/Laws/Buffer.lean ====
section
/-! SUPPORT. The receive buffer as a byte sequence: what `APPEND`, `SHIFT` and `DISCARD1` do to the meaningful bytes
(R51, R52, R119), and the induction over the evaluation loop (R113), from which every property of `FEED` follows. -/

namespace Sys2Proof.Machine

theorem buffered_congr {s t : State} (hl : s.rxLen = t.rxLen)
    (h : ∀ i, i < s.rxLen → s.rxBuf.read i = t.rxBuf.read i) : buffered s = buffered t := by
  unfold buffered; rw [← hl]
  exact memRead_congr _ _ _ _ _ (by simpa using h)

@[simp] theorem buffered_length (s : State) : (buffered s).length = s.rxLen := by simp [buffered]

theorem rxByte_eq_buffered (s : State) (k : Nat) (h : k < s.rxLen) : rxByte s k = (buffered s)[k]'(by simpa using h) := by
  simp [rxByte, buffered, memRead_getElem]

/-- `APPEND(b)` puts the byte behind the others (R51). -/
theorem buffered_append (b : Byte) (s : State) (h : s.rxBuf.wf = true) :
    buffered (append b s) = buffered s ++ [b] := by
  simp only [buffered, append_rxBuf, append_rxLen, memRead_succ]
  congr 1
  · exact memRead_congr _ _ _ _ _ (fun i hi => by rw [Memory.read_write _ _ _ _ h, if_neg (by omega)])
  · simp [Memory.read_write _ _ _ _ h]

/-- `SHIFT(n)` drops the `n` oldest bytes and keeps the order of the others (R52). -/
theorem buffered_shift (n : Nat) (s : State) (h : s.rxBuf.wf = true) :
    buffered (shift n s) = (buffered s).drop n := by
  refine List.ext_getElem (by simp) fun i h1 h2 => ?_
  simp only [buffered, shift_rxBuf, shift_rxLen, memRead_length] at h1
  simp only [buffered, shift_rxBuf, shift_rxLen, memRead_getElem, List.getElem_drop]
  rw [(copyDown_spec _ _ _ h).2, if_pos (by omega)]; congr 1; omega

/-- `DISCARD1` reports the oldest byte and drops it (R119). -/
theorem buffered_discard1 (s : State) (h : s.rxBuf.wf = true) :
    buffered (discard1 s) = (buffered s).drop 1 := buffered_shift 1 s h

theorem frontLength_le (s : State) : frontLength s ≤ 255 := by
  have := (rxByte s 1).isLt
  simp only [frontLength]; omega

/-- A record update that leaves the buffer alone: what a decoder may do. -/
structure KeepsBuffer (s t : State) : Prop where
  rxBuf : t.rxBuf = s.rxBuf
  rxLen : t.rxLen = s.rxLen
  lastRxTime : t.lastRxTime = s.lastRxTime
  cfg : t.cfg = s.cfg
  passthrough : t.passthrough = s.passthrough
  tx : t.tx = s.tx
  accepted : t.accepted = s.accepted
  host : t.host = s.host

theorem KeepsBuffer.refl (s : State) : KeepsBuffer s s := ⟨rfl, rfl, rfl, rfl, rfl, rfl, rfl, rfl⟩

theorem linkBeat_keepsBuffer (now : Nat) (s : State) : KeepsBuffer s (linkBeat now s) := by
  unfold linkBeat; split <;> exact ⟨rfl, rfl, rfl, rfl, rfl, rfl, rfl, rfl⟩

theorem decodeCh_keepsBuffer (p : List Byte) (now : Nat) (s : State) : KeepsBuffer s (decodeCh p now s) := by
  unfold decodeCh; split
  · exact .refl s
  · have h := linkBeat_keepsBuffer now (setChRaw (unpack11 p) s)
    exact ⟨h.rxBuf, h.rxLen, h.lastRxTime, h.cfg, h.passthrough, h.tx, h.accepted, h.host⟩

theorem decodeParam_keepsBuffer (x : SensorId) (p : List Byte) (s : State) : KeepsBuffer s (decodeParam x p s) := by
  unfold decodeParam; split
  · exact .refl s
  · split
    · exact .refl s
    · exact ⟨rfl, rfl, rfl, rfl, rfl, rfl, rfl, rfl⟩

/-- A frame operation never touches the buffer, the passthrough flag, the configuration or the send ports (R40). -/
theorem runFrame_keepsBuffer (i : Instr) (s : State) : KeepsBuffer s (runFrame i s) := by
  cases i with
  | decCh p now => exact decodeCh_keepsBuffer p now s
  | decLs p => simp only [runFrame, decodeLs]; split <;> exact ⟨rfl, rfl, rfl, rfl, rfl, rfl, rfl, rfl⟩
  | decGps p => simp only [runFrame, decodeGps]; split <;> exact ⟨rfl, rfl, rfl, rfl, rfl, rfl, rfl, rfl⟩
  | decBat p => simp only [runFrame, decodeBat]; split <;> exact ⟨rfl, rfl, rfl, rfl, rfl, rfl, rfl, rfl⟩
  | decAtt p => simp only [runFrame, decodeAtt]; split <;> exact ⟨rfl, rfl, rfl, rfl, rfl, rfl, rfl, rfl⟩
  | decParamVario p => exact decodeParam_keepsBuffer _ p s
  | decParamBaro p => exact decodeParam_keepsBuffer _ p s
  | decParamAirspeed p => exact decodeParam_keepsBuffer _ p s
  | decParamRpm p => exact decodeParam_keepsBuffer _ p s
  | decParamTemp p => exact decodeParam_keepsBuffer _ p s
  | decParamCells p => exact decodeParam_keepsBuffer _ p s
  | decUnk t p => exact .refl s
  | reset => exact .refl s
  | feed b now => exact .refl s
  | poll now => exact .refl s
  | send a t p => exact .refl s
  | ptSet v => exact .refl s

theorem dispatch_keepsBuffer (now : Nat) (s : State) : KeepsBuffer s (dispatch now s) := by
  unfold dispatch; split
  · exact .refl s
  · exact runFrame_keepsBuffer _ s

/-- The induction over `EVAL` (R113): a property kept by the discard of one byte (with at least two buffered) and by the
consumption of a complete, plausible, valid frame is kept by the whole loop. -/
theorem evalLoop_induct (now : Nat) (P : State → Prop)
    (hd : ∀ s, P s → 2 ≤ s.rxLen → P (discard1 s))
    (hc : ∀ s, P s → plausible s.cfg (frontLength s) = true → frontLength s + 2 ≤ s.rxLen → frontCrcOk s = true →
      P (consumeFrame now s)) :
    ∀ fuel s, P s → P (evalLoop now fuel s) := by
  intro fuel
  induction fuel with
  | zero => intro s h; exact h
  | succ fuel ih =>
    intro s h
    simp only [evalLoop]
    split
    · exact h
    next h2 =>
      split
      · exact ih _ (hd s h (by omega))
      next hp =>
        split
        · exact h
        next hl =>
          split
          next hk => exact ih _ (hc s h (by simpa using hp) (by omega) hk)
          · exact ih _ (hd s h (by omega))

/-- The induction over the idle flush (R121). -/
theorem flush_induct (P : State → Prop) (hd : ∀ s, P s → 0 < s.rxLen → P (discard1 s)) :
    ∀ n s, P s → P (flush n s) := by
  intro n
  induction n with
  | zero => intro s h; exact h
  | succ n ih =>
    intro s h
    simp only [flush]
    split
    · exact h
    next h0 => exact ih _ (hd s h (by omega))

theorem consumeFrame_keeps (now : Nat) (s : State) :
    (consumeFrame now s).rxBuf = copyDown s.rxBuf (frontLength s + 2) (s.rxLen - (frontLength s + 2)) ∧
    (consumeFrame now s).rxLen = s.rxLen - (frontLength s + 2) ∧
    (consumeFrame now s).lastRxTime = s.lastRxTime ∧ (consumeFrame now s).cfg = s.cfg ∧
    (consumeFrame now s).passthrough = s.passthrough ∧ (consumeFrame now s).tx = s.tx ∧
    (consumeFrame now s).accepted = s.accepted ∧ (consumeFrame now s).host = s.host := by
  have h := dispatch_keepsBuffer now s
  simp only [consumeFrame, shift_rxBuf, shift_rxLen, shift_lastRxTime, shift_cfg, shift_passthrough, shift_tx,
    shift_accepted, shift_host, h.rxBuf, h.rxLen, h.lastRxTime, h.cfg, h.passthrough, h.tx, h.accepted, h.host, and_self]

theorem buffered_consumeFrame (now : Nat) (s : State) (h : s.rxBuf.wf = true) :
    buffered (consumeFrame now s) = (buffered s).drop (frontLength s + 2) := by
  have hk := dispatch_keepsBuffer now s
  unfold consumeFrame
  rw [buffered_shift _ _ (by rw [hk.rxBuf]; exact h)]
  congr 1
  exact buffered_congr hk.rxLen (fun i _ => by rw [hk.rxBuf])

/-- What `FEED` and `POLL` can do to the buffer and the send ports, said once for the loop: the canonical form and the
address space kept, the cursor not raised, everything the receive side does not own untouched (R40). -/
theorem evalLoop_keeps (now fuel : Nat) (s : State) (h : s.rxBuf.wf = true) :
    (evalLoop now fuel s).rxBuf.wf = true ∧ (evalLoop now fuel s).rxLen ≤ s.rxLen ∧
    (∀ a, s.rxLen ≤ a → (evalLoop now fuel s).rxBuf.read a = s.rxBuf.read a) ∧
    (evalLoop now fuel s).lastRxTime = s.lastRxTime ∧ (evalLoop now fuel s).cfg = s.cfg ∧
    (evalLoop now fuel s).passthrough = s.passthrough ∧ (evalLoop now fuel s).tx = s.tx ∧
    (evalLoop now fuel s).accepted = s.accepted ∧ (evalLoop now fuel s).host = s.host := by
  refine evalLoop_induct now (fun t => t.rxBuf.wf = true ∧ t.rxLen ≤ s.rxLen ∧
    (∀ a, s.rxLen ≤ a → t.rxBuf.read a = s.rxBuf.read a) ∧ t.lastRxTime = s.lastRxTime ∧ t.cfg = s.cfg ∧
    t.passthrough = s.passthrough ∧ t.tx = s.tx ∧ t.accepted = s.accepted ∧ t.host = s.host) ?_ ?_ fuel s
    ⟨h, le_refl _, fun _ _ => rfl, rfl, rfl, rfl, rfl, rfl, rfl⟩
  · rintro t ⟨hw, hl, hr, h1, h2, h3, h4, h5, h6⟩ _
    have hc := copyDown_spec t.rxBuf 1 (t.rxLen - 1) hw
    refine ⟨hc.1, by simp; omega, fun a ha => ?_, h1, h2, h3, h4, h5, h6⟩
    rw [discard1_rxBuf, hc.2, if_neg (by omega)]; exact hr a ha
  · rintro t ⟨hw, hl, hr, h1, h2, h3, h4, h5, h6⟩ _ _ _
    obtain ⟨k1, k2, k3, k4, k5, k6, k7, k8⟩ := consumeFrame_keeps now t
    have hc := copyDown_spec t.rxBuf (frontLength t + 2) (t.rxLen - (frontLength t + 2)) hw
    refine ⟨by rw [k1]; exact hc.1, by rw [k2]; omega, fun a ha => ?_, by rw [k3, h1], by rw [k4, h2], by rw [k5, h3],
      by rw [k6, h4], by rw [k7, h5], by rw [k8, h6]⟩
    rw [k1, hc.2, if_neg (by omega)]; exact hr a ha

end Sys2Proof.Machine
end

