-- ==== Sys2Proof/Laws/PerInstr.lean ====
section
/-! SUPPORT. Laws about every operation as syntax, one lemma per constructor of Instr. `EncodeFormat` says which of the two
formats of the opcode table an operation is encoded in (R90): a host packet that begins with the operation's own code (R88),
or a wire frame of `n + 4` bytes whose third byte is the operation's type code (R71, R74). -/

namespace Sys2Proof.Laws.EncodeFormat

/-- The command code of a CMD row (R88). -/
def commandCode : Instr → Option Byte
  | .reset => some 0x0#8
  | .feed _ _ => some 0x1#8
  | .poll _ => some 0x2#8
  | .send _ _ _ => some 0x3#8
  | .ptSet _ => some 0x4#8
  | .decCh _ _ => none
  | .decLs _ => none
  | .decGps _ => none
  | .decBat _ => none
  | .decAtt _ => none
  | .decParamVario _ => none
  | .decParamBaro _ => none
  | .decParamAirspeed _ => none
  | .decParamRpm _ => none
  | .decParamTemp _ => none
  | .decParamCells _ => none
  | .decUnk _ _ => none

/-- The type code and the payload of a FRAME row (R74). -/
def frameParts (c : Config) : Instr → Option (Byte × List Byte)
  | .reset => none
  | .feed _ _ => none
  | .poll _ => none
  | .send _ _ _ => none
  | .ptSet _ => none
  | .decCh p _ => some (c.typeCh, p)
  | .decLs p => some (c.typeLs, p)
  | .decGps p => some (c.typeGps, p)
  | .decBat p => some (c.typeBat, p)
  | .decAtt p => some (c.typeAtt, p)
  | .decParamVario p => some (c.typeSensor.vario, p)
  | .decParamBaro p => some (c.typeSensor.baro, p)
  | .decParamAirspeed p => some (c.typeSensor.airspeed, p)
  | .decParamRpm p => some (c.typeSensor.rpm, p)
  | .decParamTemp p => some (c.typeSensor.temp, p)
  | .decParamCells p => some (c.typeSensor.cells, p)
  | .decUnk t p => some (t, p)

/-- The format of the operation's encoding under every configuration. -/
def Statement (i : Instr) : Prop :=
  ∀ c : Config,
    match encode c i with
    | .command bytes => i.isCommand = true ∧ bytes.head? = commandCode i ∧ frameParts c i = none
    | .frame _ bytes =>
      i.isCommand = false ∧ commandCode i = none ∧
      ∃ parts, frameParts c i = some parts ∧ bytes[2]? = some parts.1 ∧ bytes.length = parts.2.length + 4 ∧
        (bytes.drop 3).take parts.2.length = parts.2

/-- The three facts of a wire frame, once for every FRAME row (R70, R71). -/
theorem buildFrame_parts (a t : Byte) (p : List Byte) :
    (buildFrame a t p)[2]? = some t ∧ (buildFrame a t p).length = p.length + 4 ∧
      ((buildFrame a t p).drop 3).take p.length = p := by
  refine ⟨rfl, ?_, ?_⟩
  · simp [buildFrame]
  · simp [buildFrame]

theorem reset : Statement .reset := fun _ => ⟨rfl, rfl, rfl⟩

theorem feed (b : Byte) (now : Nat) : Statement (.feed b now) := fun _ => ⟨rfl, rfl, rfl⟩

theorem poll (now : Nat) : Statement (.poll now) := fun _ => ⟨rfl, rfl, rfl⟩

theorem send (addr type : Byte) (payload : List Byte) : Statement (.send addr type payload) := fun _ => ⟨rfl, rfl, rfl⟩

theorem ptSet (v : Bool) : Statement (.ptSet v) := fun _ => ⟨rfl, rfl, rfl⟩

theorem decCh (payload : List Byte) (now : Nat) : Statement (.decCh payload now) :=
  fun _ => ⟨rfl, rfl, _, rfl, buildFrame_parts _ _ _⟩

theorem decLs (payload : List Byte) : Statement (.decLs payload) :=
  fun _ => ⟨rfl, rfl, _, rfl, buildFrame_parts _ _ _⟩

theorem decGps (payload : List Byte) : Statement (.decGps payload) :=
  fun _ => ⟨rfl, rfl, _, rfl, buildFrame_parts _ _ _⟩

theorem decBat (payload : List Byte) : Statement (.decBat payload) :=
  fun _ => ⟨rfl, rfl, _, rfl, buildFrame_parts _ _ _⟩

theorem decAtt (payload : List Byte) : Statement (.decAtt payload) :=
  fun _ => ⟨rfl, rfl, _, rfl, buildFrame_parts _ _ _⟩

theorem decParamVario (payload : List Byte) : Statement (.decParamVario payload) :=
  fun _ => ⟨rfl, rfl, _, rfl, buildFrame_parts _ _ _⟩

theorem decParamBaro (payload : List Byte) : Statement (.decParamBaro payload) :=
  fun _ => ⟨rfl, rfl, _, rfl, buildFrame_parts _ _ _⟩

theorem decParamAirspeed (payload : List Byte) : Statement (.decParamAirspeed payload) :=
  fun _ => ⟨rfl, rfl, _, rfl, buildFrame_parts _ _ _⟩

theorem decParamRpm (payload : List Byte) : Statement (.decParamRpm payload) :=
  fun _ => ⟨rfl, rfl, _, rfl, buildFrame_parts _ _ _⟩

theorem decParamTemp (payload : List Byte) : Statement (.decParamTemp payload) :=
  fun _ => ⟨rfl, rfl, _, rfl, buildFrame_parts _ _ _⟩

theorem decParamCells (payload : List Byte) : Statement (.decParamCells payload) :=
  fun _ => ⟨rfl, rfl, _, rfl, buildFrame_parts _ _ _⟩

theorem decUnk (t : Byte) (payload : List Byte) : Statement (.decUnk t payload) :=
  fun _ => ⟨rfl, rfl, _, rfl, buildFrame_parts _ _ _⟩

end Sys2Proof.Laws.EncodeFormat
end

