-- ==== Sys2Proof/Laws/Specs.lean ====
section
/-! SUPPORT. One lemma per shared operation that says what it can do, so that a proof cites it and never unfolds the
operation. The operations over the buffer are in Laws/Memory.lean and Laws/Buffer.lean. -/

namespace Sys2Proof.Machine

/-! The link state (44_link_state.md). -/

/-- `LINK.BEAT` (R181) writes the timestamp and the flag, and reports the rising edge only. -/
theorem linkBeat_spec (now : Nat) (s : State) :
    linkBeat now s =
      { s with lastChTime := now, linkUp := true, events := s.events ++ if s.linkUp then [] else [Event.linkUp] } := by
  unfold linkBeat
  split
  next h => rw [List.append_nil, stampCh, ← h]
  next h => rfl

/-- `LINK.CHECK` (R183) does nothing, or drops the flag and reports it. -/
theorem linkCheck_spec (now : Nat) (s : State) :
    linkCheck now s =
      if linkExpired now s then { s with linkUp := false, events := s.events ++ [Event.linkDown] } else s := rfl

/-! Operand assembly (30_encoding.md section 5). -/

@[simp] theorem putBe_length (v : Int) (n : Nat) : (putBe v n).length = n := by simp [putBe]

theorem beU_append (s : List Byte) (b : Byte) : beU (s ++ [b]) = beU s * 256 + b.toNat := by simp [beU]

theorem beU_lt (s : List Byte) : beU s < 256 ^ s.length := by
  induction s using List.reverseRecOn with
  | nil => simp [beU]
  | append_singleton s b ih =>
    rw [beU_append, List.length_append, List.length_singleton, pow_succ]
    have := b.isLt
    omega

/-- An encoded field is the big-endian bytes of a value in range, and nothing else is encoded (R168). -/
theorem putField_eq_some (n : Nat) (signed : Bool) (v : Int) (p : List Byte) :
    putField n signed v = some p ↔ fits n signed v = true ∧ putBe v n = p := by
  unfold putField; split <;> simp_all

/-- Encoded fields stand one behind the other, and one refused field refuses the payload (R168). -/
theorem joinFields_cons (x : Option (List Byte)) (xs : List (Option (List Byte))) (p : List Byte) :
    joinFields (x :: xs) = some p ↔ ∃ a b, x = some a ∧ joinFields xs = some b ∧ p = a ++ b := by
  cases x with
  | none => simp [joinFields]
  | some a =>
    cases h : joinFields xs with
    | none => simp [joinFields, h]
    | some b => simp [joinFields, h, eq_comm]

/-! The CRC (40_crc8.md). -/

theorem crc8_append (s : List Byte) (b : Byte) : crc8 (s ++ [b]) = crc8Upd (crc8 s) b := by simp [crc8]

/-! The loops (41_frame_sync.md). -/

/-- A state with an empty buffer is what its own flush leaves. -/
theorem eq_emptied (s : State) (h : s.rxLen = 0) :
    s = { s with rxBuf := s.rxBuf, rxLen := 0, events := s.events ++ (buffered s).map Event.oob } := by
  have hb : buffered s = [] := List.eq_nil_of_length_eq_zero (by rw [buffered_length, h])
  rw [hb, List.map_nil, List.append_nil, ← h]

/-- The idle flush (R121): each buffered byte out of band, front first; the buffer empty; nothing else. -/
theorem flush_spec : ∀ (n : Nat) (s : State), s.rxBuf.wf = true → s.rxLen ≤ n →
    ∃ m : Memory, m.wf = true ∧ (∀ a, s.rxLen ≤ a + 1 → m.read a = s.rxBuf.read a) ∧
      flush n s = { s with rxBuf := m, rxLen := 0, events := s.events ++ (buffered s).map Event.oob } := by
  intro n
  induction n with
  | zero =>
    intro s hw hn
    exact ⟨s.rxBuf, hw, fun _ _ => rfl, eq_emptied s (by omega)⟩
  | succ n ih =>
    intro s hw hn
    by_cases h0 : s.rxLen = 0
    · exact ⟨s.rxBuf, hw, fun _ _ => rfl, by rw [flush, if_pos h0]; exact eq_emptied s h0⟩
    · have hc := copyDown_spec s.rxBuf 1 (s.rxLen - 1) hw
      obtain ⟨m, hm, hr, he⟩ := ih (discard1 s) hc.1 (by rw [discard1_rxLen]; omega)
      refine ⟨m, hm, fun a ha => ?_, ?_⟩
      · rw [hr a (by rw [discard1_rxLen]; omega), discard1_rxBuf, hc.2, if_neg (by omega)]
      · have hcons : buffered s = rxByte s 0 :: buffered (discard1 s) := by
          obtain ⟨k, hk⟩ : ∃ k, s.rxLen = k + 1 := ⟨s.rxLen - 1, by omega⟩
          rw [buffered_discard1 s hw, buffered, hk, memRead_cons]; rfl
        rw [flush, if_neg h0, he, hcons, List.map_cons, discard1_events, List.append_assoc]; rfl

/-- The overflow test (R112) empties the buffer or does nothing. -/
theorem overflowTest_spec (place : OverflowCheck) (s : State) :
    overflowTest place s = if s.cfg.overflowCheck = place ∧ s.rxLen = s.cfg.rxCap then { s with rxLen := 0 } else s := rfl

theorem isCommand_ite {p : Prop} [Decidable p] (i j : Instr) (hi : i.isCommand = false) (hj : j.isCommand = false) :
    (if p then i else j).isCommand = false := by
  split
  · exact hi
  · exact hj

/-- What a validated frame selects is never a host command (R120). -/
theorem frameInstr_isCommand (c : Config) (now : Nat) (t : Byte) (p : List Byte) :
    (frameInstr c now t p).isCommand = false := by
  unfold frameInstr
  iterate 11 refine isCommand_ite _ _ rfl ?_
  rfl

/-- A frame operation is the same inside `FEED` and as an arm of its own (log entry 13). -/
theorem exec_frame (i : Instr) (s : State) (h : i.isCommand = false) : exec i s = .next (runFrame i s) := by
  cases i <;> first | rfl | cases h

/-! The send side (45_frame_composer.md). -/

/-- `SEND` (R190) writes the output ports only. -/
theorem sendFrame_spec (addr type : Byte) (p : List Byte) (s : State) :
    sendFrame addr type p s =
      if sendShut p s then { s with accepted := some false }
      else { s with tx := s.tx ++ buildFrame addr type p, accepted := some true } := rfl

/-- A typed send (R197) of what an encoder gave. -/
theorem sendEncoded_spec (addr type : Byte) (p : Option (List Byte)) (s : State) :
    sendEncoded addr type p s = p.elim { s with accepted := some false } (fun q => sendFrame addr type q s) := by
  cases p <;> rfl

/-! The step (00_scope.md R20). -/

/-- What a step can do: refuse the configuration, hold, refuse the packet, or run the decoded operation. -/
theorem step_cases (s : State) :
    (s.cfg.wf = false ∧ step s = .refused .illFormedConfig) ∨
    (s.cfg.wf = true ∧ nextOp s = none ∧ step s = .next s) ∨
    (s.cfg.wf = true ∧ ∃ e, nextOp s = some (.error e) ∧ step s = .refused (refusalOf e)) ∨
    (s.cfg.wf = true ∧ ∃ i, nextOp s = some (.ok i) ∧ step s = exec i (issue s)) := by
  cases hc : s.cfg.wf with
  | false => exact .inl ⟨rfl, by rw [step, if_pos hc]⟩
  | true =>
    have h : ¬ s.cfg.wf = false := by rw [hc]; exact Bool.noConfusion
    rcases hn : nextOp s with _ | (e | i)
    · exact .inr (.inl ⟨rfl, rfl, by rw [step, if_neg h, hn]⟩)
    · exact .inr (.inr (.inl ⟨rfl, e, rfl, by rw [step, if_neg h, hn]⟩))
    · exact .inr (.inr (.inr ⟨rfl, i, rfl, by rw [step, if_neg h, hn]⟩))

end Sys2Proof.Machine
end

