-- ==== Sys2Proof/Tests/Slice0.lean ====
section
/-! SUPPORT. Tests: ill-formed terms that WellFormed refuses; every operation's word, written out from the spec's encoding,
decodes to it; at most two small tests per operation, each with the outcome that 95_test_vectors.md gives; and for every
statement with hypotheses a state and operands that meet them (`witness_…`). -/

namespace Sys2Proof.Tests

-- One theorem after another: checked side by side, this many kernel evaluations can ask for more threads than there are.
set_option Elab.async false

open Sys2Proof Sys2Proof.Machine

/-! Helpers. -/

def hex (l : List Nat) : List Byte := l.map (BitVec.ofNat 8)

/-- The outcome is a next state with this property. -/
def answers (o : Host.Outcome State Fault Refusal) (p : State → Bool) : Bool :=
  match o with
  | .next t => p t
  | .fault _ => false
  | .refused _ => false

theorem next_of_answers {o : Host.Outcome State Fault Refusal} {p : State → Bool} (h : answers o p = true) :
    ∃ t, o = .next t ∧ p t = true := by
  cases o with
  | next t => exact ⟨t, rfl, h⟩
  | fault _ => cases h
  | refused _ => cases h

def c0 : Config := Config.reference

/-- The machine after reset, under a configuration. -/
def start (c : Config) : State := { State.reset with cfg := c }

/-- These bytes are buffered. -/
def holding (bytes : List Byte) (s : State) : State :=
  { s with rxBuf := memStore [] 0 bytes, rxLen := bytes.length }

def linkIsUp (s : State) : State := { s with linkUp := true, lastChTime := 1000 }

/-- The frames of 95_test_vectors.md. -/
def ch992Payload : List Byte :=
  hex [0xE0, 0x03, 0x1F, 0xF8, 0xC0, 0x07, 0x3E, 0xF0, 0x81, 0x0F, 0x7C,
       0xE0, 0x03, 0x1F, 0xF8, 0xC0, 0x07, 0x3E, 0xF0, 0x81, 0x0F, 0x7C]
def ch992 : List Byte := hex [0xC8, 0x18, 0x16] ++ ch992Payload ++ hex [0xAD]
def bat : List Byte := hex [0xC8, 0x0A, 0x08, 0x00, 0x7E, 0x00, 0x96, 0x00, 0x04, 0xB0, 0x4B, 0x0D]
def att : List Byte := hex [0xC8, 0x08, 0x1E, 0x01, 0x2C, 0xFF, 0x38, 0x80, 0x00, 0x03]
def ls : List Byte := hex [0xEA, 0x0C, 0x14, 0x40, 0x42, 0x64, 0xF6, 0x01, 0x02, 0x03, 0x50, 0x5F, 0x0A, 0xBD]
def gps : List Byte :=
  hex [0xC8, 0x11, 0x02, 0x1C, 0x16, 0x78, 0x07, 0xB6, 0xFB, 0xFB, 0xC0, 0x04, 0xD2, 0x69, 0x78, 0x05, 0x46, 0x0C, 0xB0]

/-- The layouts of V35, the second for all types but `vario`. -/
def varioLayout : Layout := ⟨[⟨"vertical_speed", 2, true⟩], none⟩
def rpmLayout : Layout := ⟨[⟨"source_id", 1, false⟩], some ⟨"rpm", 3, true, 19⟩⟩
def cSens : Config :=
  { c0 with sensorLayout := ⟨some varioLayout, some rpmLayout, some rpmLayout, some rpmLayout, some rpmLayout,
    some rpmLayout⟩ }
def rpmPayload : List Byte := hex [0x01, 0x00, 0x27, 0x10, 0xFF, 0xFF, 0xFE, 0x12]
def rpmRecord : SensorRec := ⟨[1], [10000, -2]⟩

/-! WellFormed refuses an ill-formed term of each check. -/

theorem test_wf_reference : c0.wf = true ∧ cSens.wf = true := by decide

theorem test_wf_frame_size :
    Config.wf { c0 with maxFrameSize := 2 } = false ∧ Config.wf { c0 with maxFrameSize := 254 } = false ∧
    Config.wf { c0 with maxFrameSize := 3 } = true ∧ Config.wf { c0 with maxFrameSize := 253 } = true := by decide

theorem test_wf_capacity :
    Config.wf { c0 with rxCap := 5 } = false ∧ Config.wf { c0 with rxCap := 6 } = true := by decide

theorem test_wf_times :
    Config.wf { c0 with timeW := 0, idleTimeout := 0, linkTimeout := 0 } = false ∧
    Config.wf { c0 with idleTimeout := 2 ^ 31 } = false ∧ Config.wf { c0 with linkTimeout := 2 ^ 31 } = false ∧
    Config.wf { c0 with idleTimeout := 2 ^ 31 - 1, linkTimeout := 2 ^ 31 - 1 } = true := by decide

theorem test_wf_type_codes :
    Config.wf { c0 with typeLs := 0x16#8 } = false ∧
    Config.wf { c0 with typeSensor := c0.typeSensor.set .cells 0x0D#8 } = false := by decide

theorem test_wf_layouts :
    Config.wf { c0 with sensorLayout := (PerSensor.all none).set .rpm (some ⟨[⟨"a", 0, false⟩], none⟩) } = false ∧
    Config.wf { c0 with sensorLayout := (PerSensor.all none).set .vario (some ⟨[⟨"a", 5, false⟩], none⟩) } = false ∧
    Config.wf { c0 with sensorLayout := (PerSensor.all none).set .baro (some ⟨[], some ⟨"a", 0, false, 1⟩⟩) } = false ∧
    Config.wf { c0 with maxFrameSize := 3, sensorLayout := (PerSensor.all none).set .temp (some varioLayout) } = false ∧
    Config.wf { c0 with maxFrameSize := 3, sensorLayout := (PerSensor.all none).set .airspeed (some varioLayout) } = false ∧
    Config.wf { c0 with maxFrameSize := 3, sensorLayout := (PerSensor.all none).set .cells (some varioLayout) } = false := by
  decide

theorem test_wf_times_of_operations :
    Instr.wf c0 (.feed 0 (2 ^ 32)) = false ∧ Instr.wf c0 (.poll (2 ^ 32)) = false ∧
    Instr.wf c0 (.decCh [0] (2 ^ 32)) = false ∧ Instr.wf c0 (.poll (2 ^ 32 - 1)) = true := by decide

theorem test_wf_payloads :
    Instr.wf c0 (.decCh [] 0) = false ∧ Instr.wf c0 (.decLs []) = false ∧ Instr.wf c0 (.decGps []) = false ∧
    Instr.wf c0 (.decBat []) = false ∧ Instr.wf c0 (.decAtt (List.replicate 61 0)) = false ∧
    Instr.wf c0 (.decAtt (List.replicate 60 0)) = true ∧ Instr.wf c0 (.decUnk 0x7F []) = false := by decide

theorem test_wf_selection :
    Instr.wf c0 (.decParamVario [0]) = false ∧ Instr.wf c0 (.decParamBaro [0]) = false ∧
    Instr.wf c0 (.decParamAirspeed [0]) = false ∧ Instr.wf c0 (.decParamRpm [0]) = false ∧
    Instr.wf c0 (.decParamTemp [0]) = false ∧ Instr.wf c0 (.decParamCells [0]) = false ∧
    Instr.wf cSens (.decParamCells [0]) = true ∧ Instr.wf c0 (.decUnk 0x16 [0]) = false ∧
    Instr.wf cSens (.decUnk 0x07 [0]) = false ∧ Instr.wf c0 (.decUnk 0x07 [0]) = true := by decide

/-! Words written out from the spec's encodings. Host packets: the codes of R88 (operand bytes: log entry 2). Frames:
95_test_vectors.md; the frames of the sensor types without a layout are built by R70 with the codes of R74. -/

theorem test_decode_reset : (decode c0 (.command (hex [0x00]))).toOption = some .reset := by decide

theorem test_decode_feed :
    (decode c0 (.command (hex [0x01, 0xEE, 0x00, 0x00, 0x03, 0xE8]))).toOption = some (.feed 0xEE 1000) := by decide

theorem test_decode_poll :
    (decode c0 (.command (hex [0x02, 0x00, 0x00, 0x05, 0x14]))).toOption = some (.poll 1300) := by decide

theorem test_decode_send :
    (decode c0 (.command (hex [0x03, 0xC8, 0x08, 0x01, 0x02]))).toOption = some (.send 0xC8 0x08 (hex [0x01, 0x02])) := by
  decide

theorem test_decode_ptSet :
    (decode c0 (.command (hex [0x04, 0x00]))).toOption = some (.ptSet false) ∧
    (decode c0 (.command (hex [0x04, 0x01]))).toOption = some (.ptSet true) := by decide

theorem test_decode_refuses :
    (decode c0 (.command [])).toOption = none ∧ (decode c0 (.command (hex [0x05]))).toOption = none ∧
    (decode c0 (.command (hex [0x10]))).toOption = none ∧ (decode c0 (.command (hex [0x00, 0x00]))).toOption = none ∧
    (decode c0 (.command (hex [0x01, 0xEE, 0x00]))).toOption = none ∧
    (decode c0 (.command (hex [0x03, 0xC8]))).toOption = none ∧
    (decode c0 (.command (hex [0x04, 0x02]))).toOption = none := by decide

theorem test_decode_ch : (decode c0 (.frame 7 ch992)).toOption = some (.decCh ch992Payload 7) := by decide +kernel

theorem test_decode_ls :
    (decode c0 (.frame 0 ls)).toOption =
      some (.decLs (hex [0x40, 0x42, 0x64, 0xF6, 0x01, 0x02, 0x03, 0x50, 0x5F, 0x0A])) := by decide +kernel

theorem test_decode_gps :
    (decode c0 (.frame 0 gps)).toOption =
      some (.decGps (hex [0x1C, 0x16, 0x78, 0x07, 0xB6, 0xFB, 0xFB, 0xC0, 0x04, 0xD2, 0x69, 0x78, 0x05, 0x46, 0x0C])) := by
  decide +kernel

theorem test_decode_bat :
    (decode c0 (.frame 0 bat)).toOption = some (.decBat (hex [0x00, 0x7E, 0x00, 0x96, 0x00, 0x04, 0xB0, 0x4B])) := by
  decide +kernel

theorem test_decode_att :
    (decode c0 (.frame 0 att)).toOption = some (.decAtt (hex [0x01, 0x2C, 0xFF, 0x38, 0x80, 0x00])) := by decide +kernel

theorem test_decode_vario :
    (decode cSens (.frame 0 (hex [0xC8, 0x04, 0x07, 0x00, 0x64, 0xE4]))).toOption = some (.decParamVario (hex [0x00, 0x64])) ∧
    (decode c0 (.frame 0 (hex [0xC8, 0x04, 0x07, 0x00, 0x64, 0xE4]))).toOption = some (.decUnk 0x07 (hex [0x00, 0x64])) := by
  decide +kernel

theorem test_decode_baro :
    (decode cSens (.frame 0 (hex [0xC8, 0x03, 0x09, 0x01] ++ [crc8 (hex [0x09, 0x01])]))).toOption =
      some (.decParamBaro (hex [0x01])) := by decide +kernel

theorem test_decode_airspeed :
    (decode cSens (.frame 0 (hex [0xC8, 0x03, 0x0A, 0x01] ++ [crc8 (hex [0x0A, 0x01])]))).toOption =
      some (.decParamAirspeed (hex [0x01])) := by decide +kernel

theorem test_decode_rpm :
    (decode cSens (.frame 0 (hex [0xC8, 0x0A, 0x0C] ++ rpmPayload ++ hex [0x75]))).toOption =
      some (.decParamRpm rpmPayload) := by decide +kernel

theorem test_decode_temp :
    (decode cSens (.frame 0 (hex [0xC8, 0x03, 0x0D, 0x01] ++ [crc8 (hex [0x0D, 0x01])]))).toOption =
      some (.decParamTemp (hex [0x01])) := by decide +kernel

theorem test_decode_cells :
    (decode cSens (.frame 0 (hex [0xC8, 0x03, 0x0E, 0x01] ++ [crc8 (hex [0x0E, 0x01])]))).toOption =
      some (.decParamCells (hex [0x01])) := by decide +kernel

theorem test_decode_unk :
    (decode c0 (.frame 0 (hex [0xC8, 0x03, 0x7F, 0x01, 0x06]))).toOption = some (.decUnk 0x7F (hex [0x01])) := by
  decide +kernel

/-- V13 and a wrong CRC: lengths 2 and 63, a truncated frame, one flipped bit. -/
theorem test_decode_frame_refuses :
    (decode c0 (.frame 0 (hex [0xC8, 0x02, 0x7F, 0x16]))).toOption = none ∧
    (decode c0 (.frame 0 (hex [0xC8, 0x3F, 0x01]))).toOption = none ∧
    (decode c0 (.frame 0 (hex [0xC8, 0x03, 0x7F, 0x01]))).toOption = none ∧
    (decode c0 (.frame 0 (hex [0xC8, 0x03, 0x7F, 0x01, 0x07]))).toOption = none ∧
    (decode c0 (.frame 0 (hex [0xC8]))).toOption = none := by decide +kernel

/-- The table's words (spec/opcode_table.json), the collision of log entry 14 among them. -/
theorem test_table_words :
    decodeTableWord 8 0x00 = some .reset ∧ decodeTableWord 8 0x01 = some (.feed 0 0) ∧
    decodeTableWord 8 0x02 = some (.poll 0) ∧ decodeTableWord 8 0x03 = some (.send 0 0 []) ∧
    decodeTableWord 8 0x04 = some (.ptSet false) ∧ decodeTableWord 8 0x14 = some (.decLs (List.replicate 10 0)) ∧
    decodeTableWord 8 0x08 = some (.decBat (List.replicate 8 0)) ∧
    decodeTableWord 8 0x0C = some (.decParamRpm [0]) ∧ decodeTableWord 8 0x55 = some (.decUnk 0x55 [0]) := by
  decide +kernel

/-- The step after `withFetchWord` runs the operation: an Attitude frame of zeros, and `PT.SET(0)`. -/
theorem test_fetch_word :
    answers (step (State.reset.withFetchWord 8 0x1E)) (fun t => decide (t.events = [.attitude ⟨0, 0, 0⟩])) = true ∧
    answers (step (State.reset.withFetchWord 8 0x0C)) (fun t => decide (t.events = [.sensor .rpm ⟨[0], []⟩])) = true ∧
    answers (step (State.reset.withFetchWord 8 0x04)) (fun t => decide (t.host = [] ∧ t.passthrough = false)) = true := by
  decide +kernel

/-! The CRC (V4, V5). -/

theorem test_crc :
    crc8Upd 0x00 0x16 = 0xD3 ∧ crc8Upd 0x00 0x01 = 0xD5 ∧
    crc8 (hex [0x31, 0x32, 0x33, 0x34, 0x35, 0x36, 0x37, 0x38, 0x39]) = 0xBC ∧
    crc8 (hex [0x16] ++ List.replicate 22 0) = 0xEF := by decide +kernel

/-! The operations. -/

/-- V90. -/
theorem test_reset :
    answers (exec .reset (linkIsUp (holding (hex [0xC8, 0x18]) { start c0 with passthrough := true, ls := some default })))
      (fun t => decide (t.rxLen = 0 ∧ t.linkUp = false ∧ t.passthrough = false ∧ t.ls = none ∧ t.events = [])) = true := by
  decide +kernel

/-- V3: the byte at the front is discarded, not the length byte; V9, the `FEED` at t = 24: two discards, then the frame behind
them. -/
theorem test_feed_resync :
    answers (exec (.feed 0x02 0) (holding (hex [0x00]) (start c0)))
      (fun t => decide (t.events = [.oob 0x00] ∧ buffered t = hex [0x02])) = true ∧
    answers (exec (.feed 0x1E 24) (holding (hex [0x4B, 0x0D] ++ att ++ hex [0xC8, 0x08]) (start c0)))
      (fun t => decide (t.events = [.oob 0x4B, .oob 0x0D, .attitude ⟨300, -200, -32768⟩] ∧
        buffered t = hex [0xC8, 0x08, 0x1E] ∧ t.lastRxTime = 24)) = true := by decide +kernel

/-- V43: idle flush, then link check. -/
theorem test_poll_both :
    answers (exec (.poll 301)
        { holding (hex [0xC8, 0x18]) (start c0) with linkUp := true, lastChTime := 0, lastRxTime := 201 })
      (fun t => decide (t.events = [.oob 0xC8, .oob 0x18, .linkDown] ∧ t.rxLen = 0 ∧ t.linkUp = false)) = true := by
  decide +kernel

/-- V40, V41: at exactly `LINK_TIMEOUT` the link stays Up, here across the wrap of `now`. -/
theorem test_poll_boundary :
    answers (exec (.poll 44) { start c0 with linkUp := true, lastChTime := 4294967040 })
      (fun t => decide (t.linkUp = true ∧ t.events = [])) = true ∧
    answers (exec (.poll 45) { start c0 with linkUp := true, lastChTime := 4294967040 })
      (fun t => decide (t.linkUp = false ∧ t.events = [.linkDown])) = true := by decide +kernel

/-- V60 and V63. -/
theorem test_send :
    answers (exec (.send 0xC8 0x08 (hex [0x00, 0x7E, 0x00, 0x96, 0x00, 0x04, 0xB0, 0x4B])) (start c0))
      (fun t => decide (t.tx = bat ∧ t.accepted = some true)) = true ∧
    answers (exec (.send 0xC8 0x7F []) (start c0)) (fun t => decide (t.tx = hex [0xC8, 0x02, 0x7F, 0x16])) = true := by
  decide +kernel

/-- V61, V62 and V65. -/
theorem test_send_gates :
    answers (exec (.send 0xC8 0x7F (List.replicate 60 0xAA)) (start c0))
      (fun t => decide (t.tx.length = 64 ∧ t.tx.getLast? = some 0xAB)) = true ∧
    answers (exec (.send 0xC8 0x7F (List.replicate 61 0xAA)) (start c0))
      (fun t => decide (t.tx = [] ∧ t.accepted = some false)) = true ∧
    answers (exec (.send 0xC8 0x08 [1]) { start c0 with passthrough := true })
      (fun t => decide (t.tx = [] ∧ t.accepted = some false)) = true := by decide +kernel

/-- V70. -/
theorem test_ptSet :
    answers (exec (.ptSet true) (start c0)) (fun t => decide (t.passthrough = true ∧ t.rxLen = 0)) = true ∧
    answers (exec (.feed 0x24 5) { start c0 with passthrough := true })
      (fun t => decide (t.events = [.oob 0x24] ∧ t.lastRxTime = 0 ∧ t.rxLen = 0)) = true := by decide +kernel

/-- V21: sixteen different values. -/
theorem test_decCh :
    answers (exec (.decCh (hex [0xAC, 0x00, 0xDF, 0xC4, 0x01, 0xF0, 0xFF, 0x00, 0x00, 0xB0, 0xAA, 0xAA, 0xFA, 0x05, 0xC0,
        0xD1, 0x47, 0x1F, 0xEE, 0x42, 0x5F, 0x05]) 7) (start c0))
      (fun t => decide (t.chRaw.map (fun v => v.toList.map BitVec.toNat) =
          some [172, 992, 1811, 0, 2047, 1, 1024, 1365, 682, 191, 1792, 1000, 500, 1500, 2000, 42] ∧
        t.linkUp = true ∧ t.lastChTime = 7 ∧ t.events.head? = some .linkUp)) = true := by decide +kernel

/-- V23: 21 bytes are no heartbeat; V22: no second `LinkUp`. -/
theorem test_decCh_short :
    answers (exec (.decCh (List.replicate 21 0) 7) (start c0)) (fun t => decide (t = start c0)) = true ∧
    answers (exec (.decCh ch992Payload 7) (linkIsUp (start c0)))
      (fun t => decide (t.events.length = 1 ∧ t.lastChTime = 7)) = true := by decide +kernel

/-- V30. -/
theorem test_decLs :
    answers (exec (.decLs (hex [0x40, 0x42, 0x64, 0xF6, 0x01, 0x02, 0x03, 0x50, 0x5F, 0x0A])) (start c0))
      (fun t => decide (t.ls = some ⟨64, 66, 100, -10, 1, 2, 3, 80, 95, 10⟩ ∧ t.linkUp = false)) = true := by decide +kernel

/-- V31. -/
theorem test_decGps :
    answers (exec (.decGps (hex [0x1C, 0x16, 0x78, 0x07, 0xB6, 0xFB, 0xFB, 0xC0, 0x04, 0xD2, 0x69, 0x78, 0x05, 0x46, 0x0C]))
        (start c0))
      (fun t => decide (t.gps = some ⟨471234567, -1225000000, 1234, 27000, 1350, 12⟩)) = true := by decide +kernel

/-- V32 and V34. -/
theorem test_decBat :
    answers (exec (.decBat (hex [0x00, 0x7E, 0x00, 0x96, 0x00, 0x04, 0xB0, 0x4B, 0x99])) (start c0))
      (fun t => decide (t.bat = some ⟨126, 150, 1200, 75⟩)) = true ∧
    answers (exec (.decBat (List.replicate 8 0xFF)) (start c0))
      (fun t => decide (t.bat = some ⟨65535, 65535, 16777215, 255⟩)) = true := by decide +kernel

/-- V33. -/
theorem test_decAtt :
    answers (exec (.decAtt (hex [0x7F, 0xFF, 0x80, 0x00, 0xFF, 0xFF])) (start c0))
      (fun t => decide (t.att = some ⟨32767, -32768, -1⟩)) = true := by decide +kernel

/-- V35. -/
theorem test_decParamVario :
    answers (exec (.decParamVario (hex [0xFF, 0x9C])) (start cSens))
      (fun t => decide (t.sens.vario = some ⟨[-100], []⟩ ∧ t.sens.rpm = none)) = true ∧
    answers (exec (.decParamVario (hex [0xFF, 0x9C])) (start c0)) (fun t => decide (t = start c0)) = true := by
  decide +kernel

/-- V35: the last byte fills no slot. The same layout stands for the four types the vectors do not show. -/
theorem test_decParamRpm :
    answers (exec (.decParamRpm rpmPayload) (start cSens))
      (fun t => decide (t.sens.rpm = some rpmRecord ∧ t.events = [.sensor .rpm rpmRecord])) = true := by decide +kernel

theorem test_decParamBaro :
    answers (exec (.decParamBaro rpmPayload) (start cSens))
      (fun t => decide (t.sens.baro = some rpmRecord ∧ t.sens.rpm = none)) = true := by decide +kernel

theorem test_decParamAirspeed :
    answers (exec (.decParamAirspeed rpmPayload) (start cSens))
      (fun t => decide (t.sens.airspeed = some rpmRecord ∧ t.sens.rpm = none)) = true := by decide +kernel

theorem test_decParamTemp :
    answers (exec (.decParamTemp rpmPayload) (start cSens))
      (fun t => decide (t.sens.temp = some rpmRecord ∧ t.sens.rpm = none)) = true := by decide +kernel

theorem test_decParamCells :
    answers (exec (.decParamCells rpmPayload) (start cSens))
      (fun t => decide (t.sens.cells = some rpmRecord ∧ t.sens.rpm = none)) = true := by decide +kernel

/-- V12: the shortest frame, of an unknown type, is consumed without an event. -/
theorem test_decUnk :
    answers (exec (.feed 0x06 4) (holding (hex [0xC8, 0x03, 0x7F, 0x01]) (start c0)))
      (fun t => decide (t.events = [] ∧ t.rxLen = 0)) = true := by decide +kernel

/-- V51: a 63-byte frame is delivered; V50: the same with 64 bytes is lost silently, but not under `AFTER_EVAL`;
V15, V80: the filter consumes a frame for another address without an event. -/
theorem test_feed_overflow_and_filter :
    answers (exec (.feed 0x32 0)
        (holding (hex [0xC8, 0x3D, 0x08, 0x00, 0x7E, 0x00, 0x96, 0x00, 0x04, 0xB0, 0x4B] ++ List.replicate 51 0) (start c0)))
      (fun t => decide (t.events = [.battery ⟨126, 150, 1200, 75⟩])) = true ∧
    answers (exec (.feed 0x89 0)
        (holding (hex [0xC8, 0x3E, 0x08, 0x00, 0x7E, 0x00, 0x96, 0x00, 0x04, 0xB0, 0x4B] ++ List.replicate 52 0) (start c0)))
      (fun t => decide (t.events = [] ∧ t.rxLen = 0 ∧ t.bat = none)) = true ∧
    answers (exec (.feed 0x89 0)
        (holding (hex [0xC8, 0x3E, 0x08, 0x00, 0x7E, 0x00, 0x96, 0x00, 0x04, 0xB0, 0x4B] ++ List.replicate 52 0)
          (start { c0 with overflowCheck := .afterEval })))
      (fun t => decide (t.events = [.battery ⟨126, 150, 1200, 75⟩])) = true ∧
    answers (exec (.feed 0x03 9) (holding (hex [0xC9] ++ (att.drop 1).dropLast) (start { c0 with addrFilter := true })))
      (fun t => decide (t.events = [] ∧ t.att = none ∧ t.rxLen = 0)) = true := by decide +kernel

/-- V26, V36: the encoders. -/
theorem test_encoders :
    encCh [1500, 1000, 2000, 988, 2012, 880, 2159, 1234, 1501, 1502, 1503, 1504, 1505, 1499, 1000, 2000] =
      some (hex [0xE0, 0x03, 0x06, 0xC0, 0x59, 0x31, 0x71, 0x00, 0xF8, 0xDF, 0x46, 0xE1, 0x1B, 0x1F, 0xF9, 0xCC, 0x87, 0x3E,
        0xEF, 0x01, 0x03, 0xE0]) ∧
    encBat ⟨126, 150, 1200, 75⟩ = some (hex [0x00, 0x7E, 0x00, 0x96, 0x00, 0x04, 0xB0, 0x4B]) ∧
    encAtt ⟨300, -200, -32768⟩ = some (hex [0x01, 0x2C, 0xFF, 0x38, 0x80, 0x00]) ∧
    encBat ⟨126, 150, 16777216, 75⟩ = none ∧ encAtt ⟨32768, 0, 0⟩ = none ∧
    encParam cSens .rpm rpmRecord = some (rpmPayload.take 7) := by decide +kernel

/-! Witnesses: for every statement with hypotheses, terms that meet them, at the boundary values of each clause. -/

theorem witness_CrcLinearDetectsBursts :
    (hex [0x01]).length = (hex [0xFF]).length ∧
    (8 ≤ 8 ∧ (0x80#8 : Byte) ≠ 0 ∧ 0 + 2 + 0 = (hex [0x16]).length + 1) ∧
    (0 ≤ 8 ∧ (0x01#8 : Byte) ≠ 0 ∧ 1 + 2 + 0 = (hex [0x16, 0x00]).length + 1) := by decide

theorem witness_PutBigEndianRoundTrips :
    (1 < 2) ∧ ((0 : Int) ≤ 0 ∧ (0 : Int) < 256 ^ 1) ∧ ((0 : Int) ≤ 65535 ∧ (65535 : Int) < 256 ^ 2) ∧
    (-(256 ^ 1 / 2) ≤ (-128 : Int) ∧ (-128 : Int) < 256 ^ 1 / 2) ∧
    (-(256 ^ 1 / 2) ≤ (127 : Int) ∧ (127 : Int) < 256 ^ 1 / 2) := by decide

theorem witness_ChannelBitsLayout : 22 ≤ ch992Payload.length ∧ 15 < 16 ∧ 10 < 11 := by decide

theorem witness_UnpackFormsAgree : 22 ≤ ch992Payload.length ∧ 22 ≤ (ch992Payload ++ hex [0x77]).length ∧ 0 < 16 := by decide

theorem witness_PackUnpackInverse : 21 < 22 ∧ 22 ≤ ch992Payload.length := by decide

theorem witness_RawToMicroseconds :
    (2046#11 : Raw).toNat ≤ (2047#11 : Raw).toNat ∧ (880 ≤ 880 ∧ 880 ≤ 2159) ∧ (880 ≤ 2159 ∧ 2159 ≤ 2159) := by decide

theorem witness_MicrosecondsToRaw :
    (880 ≤ 880 ∧ 880 ≤ 2159) ∧ (880 ≤ 2159 ∧ 2159 ≤ 2159) ∧ (879 < 880 ∨ 2160 ≤ 879) ∧ (2160 < 880 ∨ 2160 ≤ 2160) := by
  decide

theorem witness_TransformRoundTripLoss : (880 ≤ 880 ∧ 880 ≤ 2159) ∧ (880 ≤ 2159 ∧ 2159 ≤ 2159) := by decide

theorem witness_EncodeChannels :
    ((880 :: List.replicate 15 2159).length = 16 ∧ ∀ u ∈ 880 :: List.replicate 15 2159, 880 ≤ u ∧ u ≤ 2159) ∧
    ((879 :: List.replicate 15 880).length = 16 ∧ ∃ u ∈ 879 :: List.replicate 15 880, u < 880 ∨ 2159 < u) ∧
    ((2160 :: List.replicate 15 880).length = 16 ∧ ∃ u ∈ 2160 :: List.replicate 15 880, u < 880 ∨ 2159 < u) := by decide

theorem witness_DecChResult :
    (List.replicate 21 (0x00#8 : Byte)).length < 22 ∧ 22 ≤ (List.replicate 22 (0x00#8 : Byte)).length := by decide

theorem witness_DecLsResult : (List.replicate 9 (0x00#8 : Byte)).length < 10 := by decide

theorem witness_DecGpsResult : (List.replicate 14 (0x00#8 : Byte)).length < 15 := by decide

theorem witness_DecBatResult : (List.replicate 7 (0x00#8 : Byte)).length < 8 := by decide

theorem witness_DecAttResult : (List.replicate 5 (0x00#8 : Byte)).length < 6 := by decide

/-- No layout; a payload one byte short; head fields only, exactly as long; a slot array with one slot read. -/
theorem witness_DecParamResult :
    (start c0).cfg.sensorLayout.get .vario = none ∧
    ((start cSens).cfg.sensorLayout.get .vario = some varioLayout ∧ (hex [0x00]).length < varioLayout.size) ∧
    (varioLayout.size ≤ (hex [0x00, 0x64]).length ∧ varioLayout.head[0]? = some ⟨"vertical_speed", 2, true⟩ ∧
      varioLayout.slots = none) ∧
    ((start cSens).cfg.sensorLayout.get .rpm = some rpmLayout ∧ rpmLayout.size ≤ (rpmPayload.take 4).length ∧
      rpmLayout.slots = some ⟨"rpm", 3, true, 19⟩ ∧ 0 < (readLayout rpmLayout (rpmPayload.take 4)).slots.length) := by
  decide

theorem witness_FixedRecordsRoundTrip :
    LinkStats.inRange ⟨0, 255, 0, -128, 255, 0, 255, 0, 255, 127⟩ = true ∧
    Gps.inRange ⟨-2147483648, 2147483647, 0, 65535, 0, 255⟩ = true ∧
    Battery.inRange ⟨0, 65535, 16777215, 255⟩ = true ∧ Attitude.inRange ⟨-32768, 32767, 0⟩ = true ∧
    (List.replicate 10 (0xFF#8 : Byte)).length = 10 ∧ (List.replicate 15 (0xFF#8 : Byte)).length = 15 ∧
    (List.replicate 8 (0xFF#8 : Byte)).length = 8 ∧ (List.replicate 6 (0xFF#8 : Byte)).length = 6 := by decide

theorem witness_ParamRecordsRoundTrip :
    (start cSens).cfg.sensorLayout.get .rpm = some rpmLayout ∧ rpmLayout.wf = true ∧
    Layout.holds rpmLayout ⟨[255], List.replicate 19 (-8388608)⟩ = true ∧ (hex [0xFF]).length = rpmLayout.size := by decide

/-- Each gate shut at its boundary, and all open with the longest payload. -/
theorem witness_SendResult :
    (start c0).cfg.maxFrameSize < (List.replicate 61 (0xAA#8 : Byte)).length + 2 ∧
    { start c0 with passthrough := true }.passthrough = true ∧
    ((start { c0 with sendRequiresLinkUp := true }).cfg.sendRequiresLinkUp = true ∧
      (start { c0 with sendRequiresLinkUp := true }).linkUp = false) ∧
    ¬ ((start c0).cfg.maxFrameSize < (List.replicate 60 (0xAA#8 : Byte)).length + 2 ∨ (start c0).passthrough = true ∨
      ((start c0).cfg.sendRequiresLinkUp = true ∧ (start c0).linkUp = false)) ∧
    (start c0).cfg.maxFrameSize ≤ 255 := by decide

theorem witness_TypedSends :
    (encCh (List.replicate 16 880)).isSome = true ∧ (encLs ⟨0, 0, 0, 0, 0, 0, 0, 0, 0, 0⟩).isSome = true ∧
    (encGps ⟨0, 0, 0, 0, 0, 0⟩).isSome = true ∧ (encBat ⟨0, 0, 0, 0⟩).isSome = true ∧ (encAtt ⟨0, 0, 0⟩).isSome = true ∧
    (encParam (start cSens).cfg .vario ⟨[0], []⟩).isSome = true ∧
    encCh (List.replicate 16 879) = none ∧ encLs ⟨256, 0, 0, 0, 0, 0, 0, 0, 0, 0⟩ = none ∧
    encGps ⟨2147483648, 0, 0, 0, 0, 0⟩ = none ∧ encBat ⟨0, 0, 16777216, 0⟩ = none ∧ encAtt ⟨-32769, 0, 0⟩ = none ∧
    encParam (start c0).cfg .vario ⟨[0], []⟩ = none := by decide +kernel

/-- Both timers at their boundaries with a full buffer, and neither expired. -/
theorem witness_PollResult :
    (let s := { holding (List.replicate 64 0x01#8) (start c0) with linkUp := true, lastRxTime := 201 };
      s.rxBuf.wf = true ∧ s.rxLen ≤ s.cfg.rxCap ∧
      (0 < s.rxLen ∧ (s.cfg.idleTimeout : Int) ≤ (((301 : Nat) : Int) - s.lastRxTime) % 2 ^ s.cfg.timeW) ∧
      (s.linkUp = true ∧ (s.cfg.linkTimeout : Int) < (((301 : Nat) : Int) - s.lastChTime) % 2 ^ s.cfg.timeW) ∧
      s.rxLen ≤ 63 + 1) ∧
    (let s := { holding (hex [0xC8]) (start c0) with lastRxTime := 201 };
      s.rxBuf.wf = true ∧ ¬ (0 < s.rxLen ∧ (s.cfg.idleTimeout : Int) ≤ (((300 : Nat) : Int) - s.lastRxTime) % 2 ^ s.cfg.timeW)) := by
  decide +kernel

theorem witness_PollIgnoresPassthrough : ∃ t, exec (.poll 301) (linkIsUp (start c0)) = .next t := ⟨_, rfl⟩

theorem witness_FeedUnderPassthrough : { start c0 with passthrough := true }.passthrough = true := rfl

/-- The gate open and shut; the cursor at its last place. -/
theorem witness_FeedSequence :
    { start c0 with passthrough := true }.passthrough = true ∧ (start c0).passthrough = false ∧
    (holding (List.replicate 63 0x01#8) (start c0)).rxLen < (start c0).cfg.rxCap := by decide

theorem witness_FeedOverflow :
    (start c0).passthrough = false ∧ (start c0).cfg.overflowCheck = .beforeEval ∧
    (holding (List.replicate 63 0x01#8) (start c0)).rxLen + 1 = (start c0).cfg.rxCap := by decide

/-- The first byte; a candidate of the smallest length, one byte short; one of the largest. -/
theorem witness_FeedWaits :
    ((start c0).passthrough = false ∧ (start c0).rxLen + 1 < (start c0).cfg.rxCap ∧ (start c0).rxLen = 0) ∧
    (let s := holding (hex [0xC8, 0x03, 0x7F]) (start c0);
      let l := ((s.rxBuf.write s.rxLen 0x01#8).read 1).toNat;
      3 ≤ l ∧ l ≤ s.cfg.maxFrameSize ∧ s.rxLen + 1 < l + 2) ∧
    (let s := holding (hex [0xC8]) (start c0);
      let l := ((s.rxBuf.write s.rxLen 0x3E#8).read 1).toNat;
      3 ≤ l ∧ l ≤ s.cfg.maxFrameSize ∧ s.rxLen + 1 < l + 2) := by decide

/-- The five cases: too few bytes; lengths 2 and 63; incomplete; complete and valid; complete and not valid. -/
theorem witness_EvalIteration :
    (holding (hex [0xC8]) (start c0)).rxLen < 2 ∧
    (let s := holding (hex [0x00, 0x02]) (start c0); 2 ≤ s.rxLen ∧ (s.rxBuf.read 1).toNat < 3) ∧
    (let s := holding (hex [0x00, 0x3F]) (start c0); 2 ≤ s.rxLen ∧ s.cfg.maxFrameSize < (s.rxBuf.read 1).toNat) ∧
    (let s := holding (hex [0xC8, 0x03, 0x7F, 0x01]) (start c0);
      2 ≤ s.rxLen ∧ 3 ≤ (s.rxBuf.read 1).toNat ∧ s.rxLen < (s.rxBuf.read 1).toNat + 2) ∧
    (let s := holding (hex [0xC8, 0x03, 0x7F, 0x01, 0x06]) (start c0);
      3 ≤ (s.rxBuf.read 1).toNat ∧ (s.rxBuf.read 1).toNat ≤ s.cfg.maxFrameSize ∧ (s.rxBuf.read 1).toNat + 2 ≤ s.rxLen ∧
      crc8 (memRead s.rxBuf 2 ((s.rxBuf.read 1).toNat - 1)) = s.rxBuf.read ((s.rxBuf.read 1).toNat + 1)) ∧
    (let s := holding (hex [0xC8, 0x03, 0x7F, 0x01, 0x07]) (start c0);
      3 ≤ (s.rxBuf.read 1).toNat ∧ (s.rxBuf.read 1).toNat ≤ s.cfg.maxFrameSize ∧ (s.rxBuf.read 1).toNat + 2 ≤ s.rxLen ∧
      crc8 (memRead s.rxBuf 2 ((s.rxBuf.read 1).toNat - 1)) ≠ s.rxBuf.read ((s.rxBuf.read 1).toNat + 1)) := by
  decide +kernel

theorem witness_DiscardOneByte :
    (holding (hex [0xC8]) (start c0)).rxBuf.wf = true ∧ buffered (holding (hex [0xC8]) (start c0)) = 0xC8#8 :: [] ∧
    (holding (hex [0xC8]) (start c0)).rxLen ≤ 0 + 1 := by decide

theorem witness_LoopsTerminate :
    (let s := holding (hex [0xC8, 0x03, 0x7F, 0x01, 0x06]) (start c0);
      s.rxLen ≤ 5 ∧ 0 < s.rxLen ∧ 3 ≤ frontLength s ∧ frontLength s + 2 ≤ s.rxLen) := by decide

/-- The shortest candidate; the filter passing and rejecting it. -/
theorem witness_DispatchRunsDecodedFrame :
    (let s := holding (hex [0xC8, 0x03, 0x7F, 0x01, 0x06]) (start { c0 with addrFilter := true });
      3 ≤ (s.rxBuf.read 1).toNat ∧ (s.rxBuf.read 1).toNat ≤ s.cfg.maxFrameSize ∧
      crc8 (memRead s.rxBuf 2 ((s.rxBuf.read 1).toNat - 1)) = s.rxBuf.read ((s.rxBuf.read 1).toNat + 1) ∧
      s.cfg.addrFilter = true ∧ s.rxBuf.read 0 = s.cfg.ownAddr) ∧
    (let s := holding (hex [0xC9, 0x03, 0x7F, 0x01, 0x06]) (start { c0 with addrFilter := true });
      crc8 (memRead s.rxBuf 2 ((s.rxBuf.read 1).toNat - 1)) = s.rxBuf.read ((s.rxBuf.read 1).toNat + 1) ∧
      s.cfg.addrFilter = true ∧ s.rxBuf.read 0 ≠ s.cfg.ownAddr) := by decide +kernel

theorem witness_TypeCodeSelects : c0.wf = true ∧ 0x7F#8 ∉ c0.typeCodes := by decide

theorem witness_FeedFrame :
    (let s := linkIsUp (holding (List.replicate 63 0x01#8) (start c0));
      s.rxBuf.wf = true ∧ s.passthrough = false ∧ s.rxLen < s.cfg.rxCap ∧ s.linkUp = true ∧ s.rxLen < 64) := by
  decide +kernel

theorem witness_EveryOperationCompletes :
    (holding (List.replicate 63 0x01#8) (start c0)).rxLen < (start c0).cfg.rxCap := by decide

/-- Each clause's change happens: a `FEED` that appends, one that decodes a channel frame and raises the link, a `POLL` that
drops it and flushes, `PT.SET`. -/
theorem witness_WritersOfState :
    answers (exec (.feed 0xC8 5) (start c0))
      (fun t => decide (t.rxBuf ≠ (start c0).rxBuf ∧ t.rxLen ≠ (start c0).rxLen ∧ t.lastRxTime ≠ (start c0).lastRxTime)) = true ∧
    answers (exec (.feed 0xAD 5) (holding ch992.dropLast (start c0)))
      (fun t => decide (t.linkUp = true ∧ t.lastChTime ≠ (start c0).lastChTime ∧ t.chRaw ≠ (start c0).chRaw)) = true ∧
    answers (exec (.poll 2000) (linkIsUp (start c0))) (fun t => decide (t.linkUp = false)) = true ∧
    answers (exec (.ptSet true) (start c0)) (fun t => decide (t.passthrough ≠ (start c0).passthrough)) = true := by
  decide +kernel

theorem witness_FaultsKeepDecodedState :
    answers (exec (.feed 0x02 0) (holding (hex [0x00]) (start c0)))
      (fun t => decide (t.events = (start c0).events ++ [.oob 0x00]) && [Event.oob 0x00].all (fun e => !notOob e)) = true := by
  decide +kernel

/-- The clauses one after another: one byte below the overflow, the overflow, passthrough, a `POLL` with a buffer. -/
theorem witness_ByteAccounting :
    (let s := holding (List.replicate 62 0x01#8) (start c0);
      s.rxBuf.wf = true ∧ s.passthrough = false ∧ s.rxLen + 1 < s.cfg.rxCap) ∧
    (let s := holding (List.replicate 63 0x01#8) (start c0);
      s.passthrough = false ∧ s.cfg.overflowCheck = .beforeEval ∧ s.rxLen + 1 = s.cfg.rxCap) ∧
    { start c0 with passthrough := true }.passthrough = true ∧
    (let s := holding (List.replicate 63 0x01#8) (start c0); s.rxBuf.wf = true ∧ s.rxLen < s.cfg.rxCap) := by
  decide +kernel

/-- At the reference sizes only `L = 62` is oversized: with two bytes buffered, and with 63. -/
theorem witness_OversizedNeverDelivered :
    (let s := holding (hex [0xC8, 0x3E]) (start c0);
      s.rxBuf.wf = true ∧ s.passthrough = false ∧ s.cfg.overflowCheck = .beforeEval ∧ 2 ≤ s.rxLen ∧ s.rxLen < s.cfg.rxCap ∧
      3 ≤ frontLength s ∧ frontLength s ≤ s.cfg.maxFrameSize ∧ s.cfg.rxCap ≤ frontLength s + 2) ∧
    (let s := holding (hex [0xC8, 0x3E] ++ List.replicate 61 0x55) (start c0);
      s.rxBuf.wf = true ∧ 2 ≤ s.rxLen ∧ s.rxLen + 1 = s.cfg.rxCap ∧ 3 ≤ frontLength s ∧
      frontLength s ≤ s.cfg.maxFrameSize ∧ s.cfg.rxCap ≤ frontLength s + 2) := by decide +kernel

/-- The longest payload that loops back, and the shortest, under the address filter. -/
theorem witness_LoopbackDelivers :
    (answers (exec (.send 0xC8 0x7F (List.replicate 59 0x01#8)) (start c0))
      (fun t => decide (t.accepted = some true ∧ (List.replicate 63 7).length = t.tx.length ∧
        (List.replicate 63 7).getLast? = some 7)) = true ∧
      (List.replicate 59 (0x01#8 : Byte)).length + 4 ≤ (start c0).cfg.rxCap - 1) ∧
    (let s := start { c0 with addrFilter := true };
      s.cfg.wf = true ∧ s.tx = [] ∧ (s.cfg.addrFilter = true → 0xC8#8 = s.cfg.ownAddr) ∧
      1 ≤ ([0x01#8] : List Byte).length ∧ s.rxLen = 0 ∧ s.passthrough = false ∧ s.rxBuf.wf = true) := by decide +kernel

/-- As a step, at the two boundaries: no event yet and Down, and one `LinkUp` and Up; as a run. -/
theorem witness_LinkEventsAlternate :
    (Instr.decCh ch992Payload 0 ≠ .reset ∧
      answers (exec (.decCh ch992Payload 0) (start c0)) (fun t => decide (t.events.length = 2)) = true ∧
      alternates false (start c0).events = true ∧
      ((start c0).linkUp = true ↔ (start c0).events.count .linkDown < (start c0).events.count .linkUp)) ∧
    (let s := { linkIsUp (start c0) with events := [.linkUp, .oob 0x55] };
      Instr.poll 1301 ≠ .reset ∧
      answers (exec (.poll 1301) s) (fun t => decide (t.events = [.linkUp, .oob 0x55, .linkDown])) = true ∧
      alternates false s.events = true ∧ (s.linkUp = true ↔ s.events.count .linkDown < s.events.count .linkUp)) ∧
    (let ops : List Instr := [.decCh ch992Payload 0, .poll 301, .decCh ch992Payload 400];
      Instr.reset ∉ ops ∧ (start c0).linkUp = false ∧ (start c0).events = [] ∧
      answers (runOps ops (start c0)) (fun t => decide (t.events.length = 5)) = true) := by decide +kernel

theorem witness_ElapsedAcrossWrap : 2 ^ 32 - 1 < 2 ^ c0.timeW ∧ 0 < 1 ∧ 1 < 2 ^ c0.timeW := by decide

theorem witness_LinkDownLatency :
    (let s := linkIsUp (start c0);
      s.linkUp = true ∧ s.rxLen = 0 ∧ List.IsChain (fun a b => a ≤ b ∧ b ≤ a + 300) (s.lastChTime :: [1300, 1301]) ∧
      (∀ u ∈ [1300, 1301], u < 2 ^ s.cfg.timeW) ∧ ∃ u ∈ [1300, 1301], s.lastChTime + s.cfg.linkTimeout < u) := by decide

theorem witness_SendDoesNotDisturbReceive :
    (∃ u, exec (.send 0xC8 0x08 [0x01#8]) (linkIsUp (start c0)) = .next u) ∧
    (∃ t, exec (.poll 2000) (linkIsUp (start c0)) = .next t) ∧
    answers (exec (.feed 0xC8 5) (linkIsUp (start c0))) (fun _ => true) = true :=
  ⟨⟨_, rfl⟩, ⟨_, rfl⟩, by decide⟩

/-- Two states that differ in all three unspecified registers. -/
theorem witness_UnspecifiedRegistersUnobservable :
    (start c0).rxBuf.wf = true ∧ (holding [0x55#8] (start c0)).rxBuf.wf = true ∧ start c0 ≠
      { holding [0x55#8] (start c0) with rxLen := 0, lastRxTime := 9, lastChTime := 8 } ∧
    ObsEq (start c0) { holding [0x55#8] (start c0) with rxLen := 0, lastRxTime := 9, lastChTime := 8 } :=
  ⟨rfl, rfl, by decide, ⟨rfl, rfl, rfl, rfl, fun h => absurd h (by decide), rfl, fun h => absurd h (by decide), rfl, rfl, rfl,
    rfl, rfl, rfl, rfl, rfl, rfl, rfl⟩⟩

/-- Two bytes buffered, the link Up, a record decoded, a `FEED` pending. -/
theorem witness_StepKeepsInvariant :
    (let s := linkIsUp { holding (hex [0xC8, 0x03]) (start cSens) with
        host := [hex [0x01, 0x7F, 0x00, 0x00, 0x00, 0x05]], sens := (PerSensor.all none).set .rpm (some rpmRecord) };
      Inv s ∧ ∃ t, step s = .next t) := by
  refine ⟨⟨by decide, by decide, by decide, by decide, .inr (by decide), by decide, by decide, ?_, ?_, ?_, ?_, ?_⟩, ?_⟩
  · intro r h; cases h
  · intro r h; cases h
  · intro r h; cases h
  · intro r h; cases h
  · intro x r h
    cases x with
    | rpm => cases h; exact ⟨rpmLayout, rfl, by decide⟩
    | vario => cases h
    | baro => cases h
    | airspeed => cases h
    | temp => cases h
    | cells => cases h
  · exact (next_of_answers (p := fun _ => true) (by decide +kernel)).imp fun _ h => h.1

/-- A stable state whose next byte completes a frame, and one about to overflow. -/
theorem witness_FeedLeavesStableState :
    (let s := holding (hex [0xC8, 0x03, 0x7F, 0x01]) (start c0);
      s.cfg.wf = true ∧ Stable s ∧ s.rxLen < s.cfg.rxCap ∧ answers (exec (.feed 0x06 0) s) (fun _ => true) = true) ∧
    (let s := holding (hex [0xC8, 0x3E] ++ List.replicate 61 0x55) (start c0);
      s.cfg.wf = true ∧ Stable s ∧ s.rxLen < s.cfg.rxCap ∧ answers (exec (.feed 0x06 0) s) (fun _ => true) = true) :=
  ⟨⟨by decide, .inr (by decide), by decide, by decide +kernel⟩, ⟨by decide, .inr (by decide +kernel), by decide, by decide +kernel⟩⟩

theorem witness_DecodeEncode :
    c0.wf = true ∧ Instr.wf c0 (.feed 0xFF (2 ^ 32 - 1)) = true ∧ Instr.wf c0 (.decUnk 0x7F (List.replicate 60 0)) = true ∧
    cSens.wf = true ∧ Instr.wf cSens (.decParamCells [0]) = true := by decide

theorem witness_EncodeDecodeCommand : decodeCommand c0 (hex [0x04, 0x01]) = .ok (.ptSet true) := rfl

theorem witness_FrameFormat : Config.maxFrameSize { c0 with maxFrameSize := 253 } ≤ 253 := by decide

theorem witness_StepRunsDecodedOperation :
    { start c0 with host := [hex [0x00]] }.cfg.wf = true ∧ { start c0 with host := [hex [0x00]] }.host = hex [0x00] :: [] ∧
    decode c0 (.command (hex [0x00])) = .ok .reset := ⟨by decide, rfl, rfl⟩

theorem witness_StepIdlesAndRefuses :
    (c0.wf = true ∧ (start c0).host = []) ∧
    ({ start c0 with host := [hex [0x05]] }.host = (0x05#8 :: []) :: [] ∧ 5 ≤ (0x05#8 : Byte).toNat) ∧
    (start { c0 with rxCap := 5 }).cfg.wf = false := by decide

theorem witness_HostReads :
    (let s := { holding (hex [0xC8]) (start c0) with
        chRaw := some (unpack11 ch992Payload), ls := some default, gps := some default, bat := some default,
        att := some default, sens := PerSensor.all (some rpmRecord) };
      s.chRaw.isSome = true ∧ s.ls.isSome = true ∧ s.gps.isSome = true ∧ s.bat.isSome = true ∧ s.att.isSome = true ∧
      s.sens.get .temp = some rpmRecord ∧ 0 < s.rxLen) := by decide +kernel

end Sys2Proof.Tests
end

section
/-! What `FEED` leaves unchanged past the passthrough gate (R40, R110): the frame of each of its stages, then of the whole. -/

namespace Sys2Proof.Machine

/-! Events and the link: what a receive operation may do to them. -/

/-- A receive operation reports by appending events and never drops the link (R181; only `POLL` and `RESET` do). -/
structure OnlyReports (s t : State) : Prop where
  linkUp : s.linkUp = true → t.linkUp = true
  events : s.events <+: t.events

theorem OnlyReports.refl (s : State) : OnlyReports s s := ⟨id, List.prefix_rfl⟩

theorem OnlyReports.trans {s t u : State} (h : OnlyReports s t) (h' : OnlyReports t u) : OnlyReports s u :=
  ⟨h'.linkUp ∘ h.linkUp, h.events.trans h'.events⟩

theorem OnlyReports.emit {s t : State} (e : Event) (h : OnlyReports s t) : OnlyReports s (emit e t) :=
  ⟨h.linkUp, h.events.trans (List.prefix_append _ _)⟩

/-- The shape of every decoder: a short payload is dropped (R86), any other decoded. -/
theorem OnlyReports.dropOr {s t : State} {short : Prop} [Decidable short] (h : OnlyReports s t) :
    OnlyReports s (if short then s else t) := by
  split
  · exact .refl s
  · exact h

theorem linkBeat_onlyReports (now : Nat) (s : State) : OnlyReports s (linkBeat now s) := by
  rw [linkBeat_spec]
  exact ⟨fun _ => rfl, List.prefix_append _ _⟩

theorem decodeCh_onlyReports (p : List Byte) (now : Nat) (s : State) : OnlyReports s (decodeCh p now s) :=
  have hset : OnlyReports s (setChRaw (unpack11 p) s) := ⟨id, List.prefix_rfl⟩
  .dropOr (.emit _ (hset.trans (linkBeat_onlyReports now _)))

theorem decodeParam_onlyReports (x : SensorId) (p : List Byte) (s : State) : OnlyReports s (decodeParam x p s) := by
  unfold decodeParam
  split
  · exact .refl s
  · exact .dropOr (.emit _ ⟨id, List.prefix_rfl⟩)

theorem runFrame_onlyReports (i : Instr) (s : State) : OnlyReports s (runFrame i s) := by
  cases i with
  | decCh p now => exact decodeCh_onlyReports p now s
  | decLs p => exact .dropOr (.emit _ ⟨id, List.prefix_rfl⟩)
  | decGps p => exact .dropOr (.emit _ ⟨id, List.prefix_rfl⟩)
  | decBat p => exact .dropOr (.emit _ ⟨id, List.prefix_rfl⟩)
  | decAtt p => exact .dropOr (.emit _ ⟨id, List.prefix_rfl⟩)
  | decParamVario p => exact decodeParam_onlyReports _ p s
  | decParamBaro p => exact decodeParam_onlyReports _ p s
  | decParamAirspeed p => exact decodeParam_onlyReports _ p s
  | decParamRpm p => exact decodeParam_onlyReports _ p s
  | decParamTemp p => exact decodeParam_onlyReports _ p s
  | decParamCells p => exact decodeParam_onlyReports _ p s
  | decUnk t p => exact .refl s
  | reset => exact .refl s
  | feed b now => exact .refl s
  | poll now => exact .refl s
  | send a t p => exact .refl s
  | ptSet v => exact .refl s

theorem dispatch_onlyReports (now : Nat) (s : State) : OnlyReports s (dispatch now s) :=
  .dropOr (runFrame_onlyReports _ s)

theorem discard1_onlyReports (s : State) : OnlyReports s (discard1 s) :=
  .emit (t := shift 1 s) _ ⟨id, List.prefix_rfl⟩

theorem consumeFrame_onlyReports (now : Nat) (s : State) : OnlyReports s (consumeFrame now s) :=
  have h := dispatch_onlyReports now s
  ⟨h.linkUp, h.events⟩

theorem evalLoop_onlyReports (now fuel : Nat) (s : State) : OnlyReports s (evalLoop now fuel s) :=
  evalLoop_induct now (OnlyReports s)
    (fun t h _ => h.trans (discard1_onlyReports t))
    (fun t h _ _ _ => h.trans (consumeFrame_onlyReports now t)) fuel s (.refl s)

/-! The overflow test (R112): the cursor, nothing else. -/

theorem overflowTest_eq (place : OverflowCheck) (s : State) :
    overflowTest place s =
      { s with rxLen := if s.cfg.overflowCheck = place ∧ s.rxLen = s.cfg.rxCap then 0 else s.rxLen } := by
  rw [overflowTest_spec]
  split <;> rfl

theorem overflowTest_rxLen_le (place : OverflowCheck) (s : State) : (overflowTest place s).rxLen ≤ s.rxLen := by
  rw [overflowTest_eq]
  dsimp only
  split <;> omega

/-- At its configured place the test leaves a cursor inside the buffer. -/
theorem overflowTest_rxLen_lt (s : State) (hpos : 0 < s.cfg.rxCap) (hle : s.rxLen ≤ s.cfg.rxCap) :
    (overflowTest s.cfg.overflowCheck s).rxLen < s.cfg.rxCap := by
  rw [overflowTest_eq]
  dsimp only
  split
  · exact hpos
  next hfull =>
    have hne : s.rxLen ≠ s.cfg.rxCap := fun h => hfull ⟨rfl, h⟩
    omega

/-! The stages of `FEED` behind the gate (R110). -/

/-- The state in which `FEED` begins its evaluation: time stamped, byte appended, first overflow test done. -/
def received (b : Byte) (now : Nat) (s : State) : State :=
  overflowTest .beforeEval (append b (stampRx now s))

theorem assemble_eq (b : Byte) (now : Nat) (s : State) :
    assemble b now s = overflowTest .afterEval (eval now (received b now s)) := rfl

theorem received_eq (b : Byte) (now : Nat) (s : State) :
    received b now s =
      { s with rxBuf := s.rxBuf.write s.rxLen b, lastRxTime := now, rxLen := (received b now s).rxLen } := by
  rw [received, overflowTest_eq]
  rfl

theorem received_keeps (b : Byte) (now : Nat) (s : State) :
    (received b now s).lastRxTime = now ∧ (received b now s).passthrough = s.passthrough ∧
    (received b now s).tx = s.tx ∧ (received b now s).accepted = s.accepted ∧ (received b now s).host = s.host ∧
    (received b now s).cfg = s.cfg := by
  rw [received_eq]
  exact ⟨rfl, rfl, rfl, rfl, rfl, rfl⟩

theorem received_rxLen_le (b : Byte) (now : Nat) (s : State) : (received b now s).rxLen ≤ s.rxLen + 1 :=
  overflowTest_rxLen_le _ _

theorem received_wf (b : Byte) (now : Nat) (s : State) (hw : s.rxBuf.wf = true) : (received b now s).rxBuf.wf = true := by
  rw [received_eq]
  exact Memory.wf_write _ _ _ hw

/-- The one byte that changes is the appended one (R51). -/
theorem received_read (b : Byte) (now : Nat) (s : State) (hw : s.rxBuf.wf = true) (a : Nat) (ha : s.rxLen < a) :
    (received b now s).rxBuf.read a = s.rxBuf.read a := by
  rw [received_eq]
  dsimp only
  rw [Memory.read_write _ _ _ _ hw, if_neg (by omega)]

theorem assemble_onlyReports (b : Byte) (now : Nat) (s : State) : OnlyReports s (assemble b now s) := by
  have hrecv : OnlyReports s (received b now s) := by
    rw [received_eq]
    exact ⟨id, List.prefix_rfl⟩
  have h := hrecv.trans (evalLoop_onlyReports now (received b now s).rxLen _)
  rw [assemble_eq, overflowTest_eq]
  exact ⟨h.linkUp, h.events⟩

/-- Every byte above the appended one keeps its value: `SHIFT`'s loop writes below `rx_len` only (R52, log entry 20). -/
theorem assemble_read_above (b : Byte) (now : Nat) (s : State) (hw : s.rxBuf.wf = true) (a : Nat) (ha : s.rxLen < a) :
    (assemble b now s).rxBuf.read a = s.rxBuf.read a := by
  obtain ⟨-, -, hread, -⟩ := evalLoop_keeps now (received b now s).rxLen _ (received_wf b now s hw)
  rw [assemble_eq, overflowTest_eq]
  calc (eval now (received b now s)).rxBuf.read a
      = (received b now s).rxBuf.read a := hread a (by have := received_rxLen_le b now s; omega)
    _ = s.rxBuf.read a := received_read b now s hw a ha

theorem assemble_rxLen_le (b : Byte) (now : Nat) (s : State) (hw : s.rxBuf.wf = true) :
    (assemble b now s).rxLen ≤ s.rxLen + 1 := by
  obtain ⟨-, hlen, -⟩ := evalLoop_keeps now (received b now s).rxLen _ (received_wf b now s hw)
  calc (assemble b now s).rxLen
      ≤ (eval now (received b now s)).rxLen := overflowTest_rxLen_le _ _
    _ ≤ (received b now s).rxLen := hlen
    _ ≤ s.rxLen + 1 := received_rxLen_le b now s

/-- What the receive side does not own, and the timestamp (R40, R110). -/
theorem assemble_keeps (b : Byte) (now : Nat) (s : State) (hw : s.rxBuf.wf = true) :
    (assemble b now s).lastRxTime = now ∧ (assemble b now s).passthrough = s.passthrough ∧
    (assemble b now s).tx = s.tx ∧ (assemble b now s).accepted = s.accepted ∧ (assemble b now s).host = s.host ∧
    (assemble b now s).cfg = s.cfg := by
  obtain ⟨-, -, -, htime, hcfg, hpt, htx, hacc, hhost⟩ :=
    evalLoop_keeps now (received b now s).rxLen _ (received_wf b now s hw)
  obtain ⟨rtime, rpt, rtx, racc, rhost, rcfg⟩ := received_keeps b now s
  rw [assemble_eq, overflowTest_eq]
  exact ⟨htime.trans rtime, hpt.trans rpt, htx.trans rtx, hacc.trans racc, hhost.trans rhost, hcfg.trans rcfg⟩

/-- Whichever place the overflow test has (R18), the cursor ends inside the buffer (R25): before evaluation the test brings
it there and the loop does not raise it, after evaluation the test comes last. -/
theorem assemble_rxLen_lt (b : Byte) (now : Nat) (s : State) (hw : s.rxBuf.wf = true) (hlt : s.rxLen < s.cfg.rxCap) :
    (assemble b now s).rxLen < s.cfg.rxCap := by
  obtain ⟨-, hlen, -, -, hcfg, -⟩ := evalLoop_keeps now (received b now s).rxLen _ (received_wf b now s hw)
  change (eval now (received b now s)).rxLen ≤ _ at hlen
  obtain ⟨-, -, -, -, -, rcfg⟩ := received_keeps b now s
  have hcfg : (eval now (received b now s)).cfg = s.cfg := hcfg.trans rcfg
  have hpos : 0 < s.cfg.rxCap := by omega
  rw [assemble_eq]
  cases hplace : s.cfg.overflowCheck with
  | beforeEval =>
    have hrecv : (received b now s).rxLen < s.cfg.rxCap := by
      have h := overflowTest_rxLen_lt (append b (stampRx now s)) hpos hlt
      rw [append_cfg, stampRx_cfg, hplace] at h
      exact h
    have hlast := overflowTest_rxLen_le .afterEval (eval now (received b now s))
    omega
  | afterEval =>
    have hle := received_rxLen_le b now s
    have h := overflowTest_rxLen_lt (eval now (received b now s)) (by rw [hcfg]; exact hpos) (by rw [hcfg]; omega)
    rwa [hcfg, hplace] at h

/-- `FEED` with the gate open and the cursor inside the buffer (R110). -/
theorem exec_feed_assembles (b : Byte) (now : Nat) (s : State) (hpt : s.passthrough = false)
    (hlt : s.rxLen < s.cfg.rxCap) : exec (.feed b now) s = .next (assemble b now s) := by
  change execFeed b now s = _
  rw [execFeed, hpt, if_neg Bool.false_ne_true, if_neg (Nat.not_le.mpr hlt)]

/-- Settles O38: the frame of `assemble`, clause by clause. -/
theorem feedFrame : Obligations.FeedFrame := by
  intro b now s hw hpt hlt
  obtain ⟨htime, hpt', htx, hacc, hhost, hcfg⟩ := assemble_keeps b now s hw
  obtain ⟨hlink, new, hevents⟩ := assemble_onlyReports b now s
  exact ⟨assemble b now s, exec_feed_assembles b now s hpt hlt, htime, hpt', htx, hacc, hhost, hcfg,
    assemble_rxLen_le b now s hw, assemble_rxLen_lt b now s hw hlt, hlink, ⟨new, hevents.symm⟩,
    assemble_read_above b now s hw⟩

end Sys2Proof.Machine
end

section
/-! What the registers hold after reset (R39) and what a host read of them gives (R34, R59). -/

namespace Sys2Proof.Machine

/-- Settles O53: the fields of the reset state; every sensor slot is that of `PerSensor.all none`. -/
theorem resetStateValues : Obligations.ResetStateValues :=
  ⟨rfl, rfl, rfl, rfl, rfl, rfl, rfl, rfl, PerSensor_get_all none⟩

theorem hostReadChRaw_of_some {s : State} {v : ChannelSet} (k : Nat) (h : s.chRaw = some v) : hostReadChRaw k s = v := by
  rw [hostReadChRaw, h, Option.getD_some]

theorem hostReadChUs_of_some {s : State} {v : ChannelSet} (k : Nat) (h : s.chRaw = some v) :
    hostReadChUs k s = usOf v := by
  rw [hostReadChUs, hostReadChRaw_of_some k h]

theorem hostReadLs_of_some {s : State} {v : LinkStats} (k : Nat) (h : s.ls = some v) : hostReadLs k s = v := by
  rw [hostReadLs, h, Option.getD_some]

theorem hostReadGps_of_some {s : State} {v : Gps} (k : Nat) (h : s.gps = some v) : hostReadGps k s = v := by
  rw [hostReadGps, h, Option.getD_some]

theorem hostReadBat_of_some {s : State} {v : Battery} (k : Nat) (h : s.bat = some v) : hostReadBat k s = v := by
  rw [hostReadBat, h, Option.getD_some]

theorem hostReadAtt_of_some {s : State} {v : Attitude} (k : Nat) (h : s.att = some v) : hostReadAtt k s = v := by
  rw [hostReadAtt, h, Option.getD_some]

theorem hostReadSens_of_some {s : State} {x : SensorId} {v : SensorRec} (k : Nat) (h : s.sens.get x = some v) :
    hostReadSens x k s = v := by
  rw [hostReadSens, h, Option.getD_some]

/-- Below `rx_len` a read of `rx_buf` gives the buffered byte (R24, R59). -/
theorem hostReadRxBuf_eq_buffered {s : State} {a : Nat} (k : Nat) (h : a < s.rxLen) :
    some (hostReadRxBuf a k s) = (buffered s)[a]? := by
  rw [hostReadRxBuf, if_pos h, rxByte_eq_buffered s a h, List.getElem?_eq_getElem]

/-- Settles O60: one rule per readable register; the free values stand only where a record is `none` or a byte is not
buffered. -/
theorem hostReads : Obligations.HostReads := fun k _ =>
  ⟨fun _ h => ⟨hostReadChRaw_of_some k h, hostReadChUs_of_some k h⟩, fun _ h => hostReadLs_of_some k h,
    fun _ h => hostReadGps_of_some k h, fun _ h => hostReadBat_of_some k h, fun _ h => hostReadAtt_of_some k h,
    fun _ _ h => hostReadSens_of_some k h, fun _ h => hostReadRxBuf_eq_buffered k h⟩

end Sys2Proof.Machine
end

section
/-! The 176-bit little-endian integer of a channel payload, by its bits and as the sum of R56, and what `UNPACK11` reads
from it (R140). -/

namespace Sys2Proof.Machine

/-- Bit `n` of the little-endian integer is bit `n mod 8` of byte `n div 8`; past the last byte both are zero. -/
theorem testBit_leNat (p : List Byte) (n : Nat) : (leNat p).testBit n = (p.getD (n / 8) 0).getLsbD (n % 8) := by
  induction p generalizing n with
  | nil => simp [leNat]
  | cons b bs ih =>
    have hcons : leNat (b :: bs) = 2 ^ 8 * leNat bs + b.toNat := Nat.add_comm _ _
    rw [hcons, Nat.testBit_two_pow_mul_add _ b.isLt]
    split
    next hlow => rw [Nat.div_eq_of_lt hlow, Nat.mod_eq_of_lt hlow, List.getD_cons_zero, BitVec.testBit_toNat]
    next hhigh =>
      have hbyte : n / 8 = (n - 8) / 8 + 1 := by omega
      have hbit : n % 8 = (n - 8) % 8 := by omega
      rw [ih, hbyte, hbit, List.getD_cons_succ]

/-- The integer of the first `n` bytes is the sum of R56; a byte the payload does not have counts as zero. -/
theorem leNat_take_eq_sum (p : List Byte) (n : Nat) :
    leNat (p.take n) = ((List.range n).map (fun k => (p.getD k 0).toNat * 256 ^ k)).sum := by
  induction n generalizing p with
  | zero => rfl
  | succ n ih =>
    cases p with
    | nil => simp [leNat]
    | cons b bs =>
      rw [List.take_succ_cons, leNat, ih, ← List.sum_map_mul_left, List.range_succ_eq_map]
      simp [Function.comp_def, Nat.pow_succ', Nat.mul_left_comm]

/-- Channel `i` is the 11-bit window of the payload's integer at bit `11·i` (R140). -/
theorem getElem_unpack11 (p : List Byte) {i : Nat} (hi : i < nCh) :
    (unpack11 p)[i] = BitVec.ofNat 11 (leNat (p.take chPayload) >>> (11 * i)) := by
  simp [unpack11]

theorem toNat_getElem_unpack11 (p : List Byte) {i : Nat} (hi : i < nCh) :
    (unpack11 p)[i].toNat =
      (((List.range chPayload).map (fun k => (p.getD k 0).toNat * 256 ^ k)).sum >>> (11 * i)) &&& 0x7FF := by
  rw [getElem_unpack11 p hi, BitVec.toNat_ofNat, leNat_take_eq_sum]
  exact (Nat.and_two_pow_sub_one_eq_mod _ 11).symm

/-- Sixteen channels of 11 bits fill the 22 bytes exactly, so every bit of a channel lies inside them. -/
theorem getLsbD_getElem_unpack11 (p : List Byte) {i m : Nat} (hi : i < nCh) (hm : m < 11) :
    (unpack11 p)[i].getLsbD m = (p.getD ((11 * i + m) / 8) 0).getLsbD ((11 * i + m) % 8) := by
  have hbyte : (11 * i + m) / 8 < chPayload := by
    change i < 16 at hi
    change _ < 22
    omega
  calc (unpack11 p)[i].getLsbD m
      = (leNat (p.take chPayload)).testBit (11 * i + m) := by
        rw [getElem_unpack11 p hi, BitVec.getLsbD_ofNat, decide_eq_true hm, Bool.true_and, Nat.testBit_shiftRight]
    _ = ((p.take chPayload).getD ((11 * i + m) / 8) 0).getLsbD ((11 * i + m) % 8) := testBit_leNat _ _
    _ = (p.getD ((11 * i + m) / 8) 0).getLsbD ((11 * i + m) % 8) := by
        rw [List.getD_eq_getElem?_getD, List.getElem?_take_of_lt hbyte, ← List.getD_eq_getElem?_getD]

/-- Settles O7: the bits of a channel, then its value; a payload of fewer bytes would read as if padded with zeros. -/
theorem channelBitsLayout : Obligations.ChannelBitsLayout := fun P _ _ hi =>
  ⟨fun _ hm => getLsbD_getElem_unpack11 P hi hm, toNat_getElem_unpack11 P hi⟩

end Sys2Proof.Machine
end

section
/-! Which byte sequences are wire frames (R70, R71, R72, R75), and which operation a type code selects (R74, R85). -/

namespace Sys2Proof.Machine

/-- A byte sequence long enough to hold a type and a CRC is a frame exactly when its length byte counts both and the
payload between them (R71), that length is plausible (R72) and the CRC is that of type and payload (R75). -/
theorem decodeFrame_eq_ok_iff (c : Config) (now : Nat) (addr size type x : Byte) (P : List Byte) (i : Instr) :
    decodeFrame c now (addr :: size :: type :: (P ++ [x])) = .ok i ↔
      size.toNat = P.length + 2 ∧ 1 ≤ P.length ∧ P.length + 2 ≤ c.maxFrameSize ∧ x = crc8 (type :: P) ∧
        i = frameInstr c now type P := by
  unfold decodeFrame
  dsimp only
  by_cases hsize : size.toNat = P.length + 2
  · have hbody : (type :: (P ++ [x])).length = size.toNat := by simp [hsize]
    have hcrc : (type :: (P ++ [x])).getD (size.toNat - 1) 0 = x := by simp [hsize]
    have hcover : (type :: (P ++ [x])).take (size.toNat - 1) = type :: P := by simp [hsize]
    have hpayload : ((type :: (P ++ [x])).drop 1).take (size.toNat - 2) = P := by simp [hsize]
    rw [hcrc, hcover, hpayload, if_neg (not_not_intro hbody), List.getD_cons_zero]
    split
    next himplausible => exact iff_of_false nofun (fun ⟨_, hpos, hle, _⟩ => by omega)
    next hplausible =>
      split
      next hbad => simp [Ne.symm hbad]
      next hgood =>
        have hlen : 1 ≤ P.length ∧ P.length + 2 ≤ c.maxFrameSize := by omega
        simp [hsize, hlen, (not_not.mp hgood).symm, eq_comm]
  · have hbody : (type :: (P ++ [x])).length ≠ size.toNat := by simpa using Ne.symm hsize
    rw [if_pos hbody]
    split <;> simp [hsize]

/-- A frame has an address, a length byte, a type and, the plausible length being at least 3, a CRC after its payload. -/
theorem exists_parts_of_decodeFrame {c : Config} {now : Nat} {bytes : List Byte} {i : Instr}
    (h : decodeFrame c now bytes = .ok i) :
    ∃ addr size type P x, bytes = addr :: size :: type :: (P ++ [x]) := by
  match bytes with
  | [] => cases h
  | [_] => cases h
  | addr :: size :: body =>
    have hlen : 3 ≤ body.length := by
      unfold decodeFrame at h
      grind
    match body with
    | [] => simp at hlen
    | type :: rest =>
      have hrest : rest ≠ [] := by rintro rfl; simp at hlen
      exact ⟨addr, size, type, rest.dropLast, rest.getLast hrest, by rw [List.dropLast_append_getLast]⟩

/-- R194's frame of a payload that R72 admits decodes to the operation its type selects. -/
theorem decodeFrame_buildFrame {c : Config} (now : Nat) (addr type : Byte) {P : List Byte} (hmax : c.maxFrameSize ≤ 253)
    (hpos : 1 ≤ P.length) (hle : P.length + 2 ≤ c.maxFrameSize) :
    decodeFrame c now (buildFrame addr type P) = .ok (frameInstr c now type P) := by
  have hsize : (BitVec.ofNat 8 (P.length + 2)).toNat = P.length + 2 := by
    rw [BitVec.toNat_ofNat, Nat.mod_eq_of_lt (by omega)]
  exact (decodeFrame_eq_ok_iff ..).mpr ⟨hsize, hpos, hle, rfl, rfl⟩

/-- Settles O56: the parts of a frame determine its bytes, and the bytes built from legal parts decode. -/
theorem frameFormat : Obligations.FrameFormat := by
  intro c now bytes i hmax
  constructor
  · intro h
    obtain ⟨addr, size, type, P, x, rfl⟩ := exists_parts_of_decodeFrame h
    obtain ⟨hsize, hpos, hle, rfl, hi⟩ := (decodeFrame_eq_ok_iff ..).mp h
    have hbyte : BitVec.ofNat 8 (P.length + 2) = size := by rw [← hsize, BitVec.ofNat_toNat, BitVec.setWidth_eq]
    exact ⟨addr, type, P, hpos, hle, by rw [hbyte]; rfl, hi⟩
  · rintro ⟨addr, type, P, hpos, hle, rfl, rfl⟩
    exact decodeFrame_buildFrame now addr type hmax hpos hle

/-- R19: an admitted configuration has pairwise distinct type codes. -/
theorem typeCodes_nodup_of_wf {c : Config} (h : c.wf = true) : c.typeCodes.Nodup := by
  simp only [Config.wf, Bool.and_eq_true, decide_eq_true_eq] at h
  simp only [h]

theorem frameInstr_of_notMem_typeCodes {c : Config} (now : Nat) {t : Byte} (P : List Byte) (h : t ∉ c.typeCodes) :
    frameInstr c now t P = .decUnk t P := by
  simp only [Config.typeCodes, List.mem_cons, List.not_mem_nil, or_false, not_or] at h
  simp [frameInstr, h]

/-- With distinct codes the chain of R120 passes every other row, so a sensor's code meets its own row or, where that
row is inactive (R85), none. -/
theorem frameInstr_typeSensor {c : Config} (now : Nat) (P : List Byte) (h : c.typeCodes.Nodup) (x : SensorId) :
    frameInstr c now (c.typeSensor.get x) P =
      if c.sensorLayout.get x = none then .decUnk (c.typeSensor.get x) P else .decParam x P := by
  simp only [Config.typeCodes, List.nodup_cons, List.mem_cons, List.not_mem_nil, or_false, not_or] at h
  by_cases hinactive : c.sensorLayout.get x = none
  · rw [if_pos hinactive]
    cases x <;> simp only [PerSensor.get] at hinactive ⊢ <;> simp [frameInstr, h, hinactive, eq_comm]
  · rw [if_neg hinactive]
    cases x <;> simp only [PerSensor.get] at hinactive ⊢ <;> simp [frameInstr, Instr.decParam, h, hinactive, eq_comm]

/-- Settles O37: the five fixed rows, the sensor rows, and the codes of no row. -/
theorem typeCodeSelects : Obligations.TypeCodeSelects := by
  intro c now P hwf
  have hnodup := typeCodes_nodup_of_wf hwf
  have hne := hnodup
  simp only [Config.typeCodes, List.nodup_cons, List.mem_cons, List.not_mem_nil, or_false, not_or] at hne
  refine ⟨if_pos rfl, ?ls, ?gps, ?bat, ?att, frameInstr_typeSensor now P hnodup, fun t => frameInstr_of_notMem_typeCodes now P⟩
  case ls => simp [frameInstr, hne, eq_comm]
  case gps => simp [frameInstr, hne, eq_comm]
  case bat => simp [frameInstr, hne, eq_comm]
  case att => simp [frameInstr, hne, eq_comm]

end Sys2Proof.Machine
end

section
/-! The bit form of the CRC (R100, R101). -/

namespace Sys2Proof.Machine

/-- R100 reads bit 7 by its number, the model as the top bit. -/
theorem crcShift_eq_ite_getLsbD (c : Byte) :
    crcShift c = if c.getLsbD 7 then (c <<< 1) ^^^ 0xD5#8 else c <<< 1 := by
  rw [crcShift, BitVec.msb_eq_getLsbD_last, crcPoly]

/-- The model's recursion shifts first and recurses on the result, as `Nat.iterate` does. -/
theorem crcRepeat_eq_iterate (n : Nat) (c : Byte) : crcRepeat n c = crcShift^[n] c := by
  induction n generalizing c with
  | zero => rfl
  | succ n ih => rw [crcRepeat, ih, Function.iterate_succ_apply]

/-- `CRC8.UPD` (R100) as eight steps of the shift register. -/
theorem crc8Upd_eq_iterate (c b : Byte) : crc8Upd c b = crcShift^[8] (c ^^^ b) :=
  crcRepeat_eq_iterate 8 (c ^^^ b)

/-- Settles O1: the model's eight repetitions are the iterate of R100's step; R101's fold takes the last byte last. -/
theorem crcIsBitwise : Obligations.CrcIsBitwise := by
  refine ⟨fun c b => ?bitForm, rfl, crc8_append⟩
  case bitForm => rw [crc8Upd_eq_iterate, funext crcShift_eq_ite_getLsbD]

end Sys2Proof.Machine
end

section
/-! The front candidate of the buffer: one iteration of the evaluation loop (R113), the frame that `DISPATCH` runs (R120), and
the discard of one byte (R119). -/

namespace Sys2Proof.Machine

/-! One iteration of the loop. -/

/-- One iteration of `EVAL` (R113): `none` where the loop waits for more bytes, else the state it starts again from. -/
def evalStep (now : Nat) (s : State) : Option State :=
  if s.rxLen < 2 then none
  else if plausible s.cfg (frontLength s) = false then some (discard1 s)
  else if s.rxLen < frontLength s + 2 then none
  else if frontCrcOk s then some (consumeFrame now s)
  else some (discard1 s)

/-- The model's loop is this iteration, repeated. -/
theorem evalLoop_succ (now fuel : Nat) (s : State) :
    evalLoop now (fuel + 1) s = (evalStep now s).elim s (evalLoop now fuel) := by
  rw [evalLoop, evalStep]
  iterate 4 rw [apply_ite (Option.elim · s (evalLoop now fuel))]
  rfl

theorem plausible_iff (c : Config) (l : Nat) : plausible c l = true ↔ 3 ≤ l ∧ l ≤ c.maxFrameSize := by
  simp [plausible]

theorem plausible_eq_false_iff (c : Config) (l : Nat) : plausible c l = false ↔ l < 3 ∨ c.maxFrameSize < l := by
  rw [Bool.eq_false_iff, ne_eq, plausible_iff]
  omega

theorem frontCrcOk_iff (s : State) :
    frontCrcOk s = true ↔ crc8 (memRead s.rxBuf 2 (frontLength s - 1)) = rxByte s (frontLength s + 1) :=
  decide_eq_true_iff

theorem evalStep_of_implausible (now : Nat) {s : State} (h2 : 2 ≤ s.rxLen)
    (hl : frontLength s < 3 ∨ s.cfg.maxFrameSize < frontLength s) : evalStep now s = some (discard1 s) := by
  rw [evalStep, if_neg (by omega), if_pos ((plausible_eq_false_iff ..).mpr hl)]

/-- A plausible and complete candidate is settled by its CRC. -/
theorem evalStep_of_complete (now : Nat) {s : State} (h3 : 3 ≤ frontLength s)
    (hmax : frontLength s ≤ s.cfg.maxFrameSize) (hlen : frontLength s + 2 ≤ s.rxLen) :
    evalStep now s = if frontCrcOk s then some (consumeFrame now s) else some (discard1 s) := by
  have hplausible : ¬ plausible s.cfg (frontLength s) = false := by
    rw [plausible_eq_false_iff]
    omega
  rw [evalStep, if_neg (by omega), if_neg hplausible, if_neg (by omega)]

/-- The loop waits exactly in the stable states of R124. -/
theorem evalStep_eq_none_iff (now : Nat) (s : State) : evalStep now s = none ↔ Stable s := by
  rw [evalStep, Stable]
  split
  next hshort => exact iff_of_true rfl (.inl hshort)
  next hlong =>
    split
    next himplausible =>
      have hbounds := (plausible_eq_false_iff ..).mp himplausible
      exact iff_of_false nofun (by omega)
    next hok =>
      obtain ⟨h3, hmax⟩ := (plausible_iff ..).mp (Bool.eq_true_of_not_eq_false hok)
      split
      next hincomplete => exact iff_of_true rfl (.inr ⟨h3, hmax, hincomplete⟩)
      next hcomplete =>
        refine iff_of_false ?_ (by omega)
        split <;> nofun

/-- An iteration that does not wait removes at least one byte (R123). -/
theorem rxLen_lt_of_evalStep {now : Nat} {s t : State} (h : evalStep now s = some t) : t.rxLen < s.rxLen := by
  have hpos : 2 ≤ s.rxLen := by
    by_contra hshort
    rw [(evalStep_eq_none_iff now s).mpr (.inl (by omega))] at h
    cases h
  have hcases : t = discard1 s ∨ t = consumeFrame now s := by
    rw [evalStep] at h
    split_ifs at h <;> cases h
    · exact .inl rfl
    · exact .inr rfl
    · exact .inl rfl
  obtain rfl | rfl := hcases
  · rw [discard1_rxLen]
    omega
  · obtain ⟨-, hlen, -⟩ := consumeFrame_keeps now s
    omega

/-- The loop leaves a stable state alone, whatever its bound. -/
theorem evalLoop_of_stable (now fuel : Nat) {s : State} (h : Stable s) : evalLoop now fuel s = s := by
  cases fuel with
  | zero => rfl
  | succ fuel => rw [evalLoop_succ, (evalStep_eq_none_iff now s).mpr h, Option.elim_none]

theorem eval_of_stable (now : Nat) {s : State} (h : Stable s) : eval now s = s := evalLoop_of_stable now _ h

/-- `rx_len` iterations are all there are (R123): a larger bound changes nothing. -/
theorem evalLoop_eq_eval (now : Nat) {fuel : Nat} {s : State} (h : s.rxLen ≤ fuel) :
    evalLoop now fuel s = eval now s := by
  induction fuel using Nat.strong_induction_on generalizing s with
  | _ fuel ih =>
    cases hstep : evalStep now s with
    | none =>
      have hstable := (evalStep_eq_none_iff now s).mp hstep
      rw [evalLoop_of_stable now fuel hstable, eval_of_stable now hstable]
    | some t =>
      have hlt := rxLen_lt_of_evalStep hstep
      obtain ⟨k, hk⟩ : ∃ k, s.rxLen = k + 1 := ⟨s.rxLen - 1, by omega⟩
      obtain ⟨f, rfl⟩ : ∃ f, fuel = f + 1 := ⟨fuel - 1, by omega⟩
      rw [eval, hk, evalLoop_succ, evalLoop_succ, hstep, Option.elim_some, Option.elim_some,
        ih f (by omega) (by omega), ih k (by omega) (by omega)]

/-- After an iteration that does not wait, the loop starts again (R113). -/
theorem eval_of_evalStep {now : Nat} {s t : State} (h : evalStep now s = some t) : eval now s = eval now t := by
  have hlt := rxLen_lt_of_evalStep h
  calc eval now s
      = evalLoop now (s.rxLen + 1) s := (evalLoop_eq_eval now (by omega)).symm
    _ = evalLoop now s.rxLen t := by rw [evalLoop_succ, h, Option.elim_some]
    _ = eval now t := evalLoop_eq_eval now (by omega)

/-- Settles O33: the two waits are the stable states, the other cases one iteration each. -/
theorem evalIteration : Obligations.EvalIteration := by
  intro now s l crcOk
  refine ⟨fun hshort => eval_of_stable now (.inl hshort),
    fun h2 hl => eval_of_evalStep (evalStep_of_implausible now h2 hl),
    fun _ h3 hmax hincomplete => eval_of_stable now (.inr ⟨h3, hmax, hincomplete⟩),
    fun h3 hmax hlen hcrc => eval_of_evalStep ?valid, fun h3 hmax hlen hcrc => eval_of_evalStep ?badCrc⟩
  case valid => exact (evalStep_of_complete now h3 hmax hlen).trans (if_pos ((frontCrcOk_iff s).mpr hcrc))
  case badCrc => exact (evalStep_of_complete now h3 hmax hlen).trans (if_neg (hcrc ∘ (frontCrcOk_iff s).mp))

/-! `DISPATCH` (R120). -/

theorem filteredOut_iff (s : State) :
    filteredOut s = true ↔ s.cfg.addrFilter = true ∧ rxByte s 0 ≠ s.cfg.ownAddr := by
  simp [filteredOut]

/-- The filter of R120 makes `DISPATCH` do nothing. -/
theorem dispatch_of_filteredOut (now : Nat) {s : State} (h : filteredOut s = true) : dispatch now s = s := if_pos h

/-- A frame that passes the filter is run as an operation of its own would be. -/
theorem exec_frontInstr (now : Nat) {s : State} (h : filteredOut s = false) :
    exec (frontInstr now s) s = .next (dispatch now s) := by
  have hframe : (frontInstr now s).isCommand = false := frameInstr_isCommand ..
  rw [exec_frame _ _ hframe, dispatch, h, if_neg Bool.false_ne_true]

/-- The type byte and the payload, which the CRC covers (R116). -/
theorem memRead_typed (m : Memory) (l : Nat) (h : 2 ≤ l) :
    memRead m 2 (l - 1) = m.read 2 :: memRead m 3 (l - 2) := by
  rw [show l - 1 = l - 2 + 1 by omega, memRead_cons]

/-- A candidate of length `l` as the parts of R70: address, length byte, type, payload, CRC. -/
theorem memRead_candidate (m : Memory) (l : Nat) (h : 2 ≤ l) :
    memRead m 0 (l + 2) = m.read 0 :: m.read 1 :: m.read 2 :: (memRead m 3 (l - 2) ++ [m.read (l + 1)]) := by
  obtain ⟨k, rfl⟩ : ∃ k, l = k + 2 := ⟨l - 2, by omega⟩
  rw [memRead_cons, memRead_cons, memRead_cons, memRead_succ, show 0 + 1 + 1 + 1 + k = k + 2 + 1 by omega]
  rfl

/-- A plausible candidate with a matching CRC is a wire frame (R70, R75) and decodes to what `DISPATCH` selects. -/
theorem decodeFrame_front (now : Nat) {s : State} (h3 : 3 ≤ frontLength s) (hmax : frontLength s ≤ s.cfg.maxFrameSize)
    (hcrc : frontCrcOk s = true) :
    decodeFrame s.cfg now (memRead s.rxBuf 0 (frontLength s + 2)) = .ok (frontInstr now s) := by
  have hx := (frontCrcOk_iff s).mp hcrc
  rw [memRead_typed _ _ (by omega)] at hx
  rw [memRead_candidate _ _ (by omega), decodeFrame_eq_ok_iff, memRead_length]
  exact ⟨by change frontLength s = _; omega, by omega, by omega, hx.symm, rfl⟩

/-- Settles O36: the front candidate decodes to the selected operation, and the filter alone decides whether it runs. -/
theorem dispatchRunsDecodedFrame : Obligations.DispatchRunsDecodedFrame := by
  intro now s l h3 hmax hcrc
  refine ⟨frontInstr now s, decodeFrame_front now h3 hmax ((frontCrcOk_iff s).mpr hcrc), rfl,
    fun haddr => exec_frontInstr now ?passes,
    fun hon hne => dispatch_of_filteredOut now ((filteredOut_iff s).mpr ⟨hon, hne⟩)⟩
  case passes =>
    rw [Bool.eq_false_iff, ne_eq, filteredOut_iff]
    exact fun ⟨hon, hne⟩ => hne (haddr hon)

/-! `DISCARD1` (R119). -/

theorem discard1_eq (s : State) :
    discard1 s =
      { s with
        rxBuf := copyDown s.rxBuf 1 (s.rxLen - 1), rxLen := s.rxLen - 1
        events := s.events ++ [.oob (rxByte s 0)] } := rfl

/-- `DISCARD1` writes below `rx_len - 1` only, by the loop of `SHIFT` (R52, log entry 20). -/
theorem discard1_read_above {s : State} (hw : s.rxBuf.wf = true) {a : Nat} (ha : s.rxLen ≤ a + 1) :
    (discard1 s).rxBuf.read a = s.rxBuf.read a := by
  rw [discard1_rxBuf, (copyDown_spec _ _ _ hw).2, if_neg (by omega)]

theorem rxByte_zero_of_buffered {s : State} {b : Byte} {rest : List Byte} (h : buffered s = b :: rest) :
    rxByte s 0 = b := by
  have hlen : s.rxLen = rest.length + 1 := by rw [← buffered_length, h, List.length_cons]
  rw [buffered, hlen, memRead_cons] at h
  exact (List.cons.inj h).1

/-- Settles O34: the front byte is the one reported, and the rest is what `SHIFT(1)` leaves. -/
theorem discardOneByte : Obligations.DiscardOneByte := by
  intro s b rest hw hbuf
  refine ⟨(discard1 s).rxBuf, ?state, ?rest, fun a ha => discard1_read_above hw ha⟩
  case state => rw [← rxByte_zero_of_buffered hbuf]; exact discard1_eq s
  case rest => rw [buffered_discard1 s hw, hbuf, List.drop_succ_cons, List.drop_zero]

end Sys2Proof.Machine
end

section
/-! `FEED` as the sequence of R110, and the byte that only joins the buffer (R115). -/

namespace Sys2Proof.Machine

/-- `FEED` behind the closed gate of R201. -/
theorem exec_feed_passthrough (b : Byte) (now : Nat) {s : State} (h : s.passthrough = true) :
    exec (.feed b now) s = .next (emit (.oob b) s) := by
  change execFeed b now s = _
  rw [execFeed, if_pos h]

/-- No operation writes the configuration, the loop included. -/
theorem eval_cfg (now : Nat) (s : State) : (eval now s).cfg = s.cfg := by
  refine evalLoop_induct now (·.cfg = s.cfg) (fun t ht _ => ht) (fun t ht _ _ _ => ?_) _ s rfl
  obtain ⟨-, -, -, hcfg, -⟩ := consumeFrame_keeps now t
  exact hcfg.trans ht

/-- Settles O30: behind the gate, the stages of `assemble`; the loop keeps the parameters that the last test reads. -/
theorem feedSequence : Obligations.FeedSequence := by
  intro b now s
  refine ⟨exec_feed_passthrough b now, fun hpt hlt => ?_⟩
  intro s1 s2 s3
  have hs3 : s3 = eval now (received b now s) := rfl
  have hcfg : s3.cfg = s.cfg := by rw [hs3, eval_cfg, received_eq]
  rw [exec_feed_assembles b now s hpt hlt, assemble_eq, ← hs3, overflowTest_spec, hcfg]

theorem overflowTest_of_ne (place : OverflowCheck) {s : State} (h : s.rxLen ≠ s.cfg.rxCap) : overflowTest place s = s :=
  if_neg fun hfull => h hfull.2

/-- A byte after which the buffer is neither full nor holds anything to settle is stamped and appended (R115). -/
theorem assemble_of_stable {b : Byte} {now : Nat} {s : State} (hlen : s.rxLen + 1 ≠ s.cfg.rxCap)
    (h : Stable (append b (stampRx now s))) : assemble b now s = append b (stampRx now s) := by
  have hnotFull : (append b (stampRx now s)).rxLen ≠ (append b (stampRx now s)).cfg.rxCap := hlen
  rw [assemble_eq, received, overflowTest_of_ne _ hnotFull, eval_of_stable now h, overflowTest_of_ne _ hnotFull]

/-- Settles O32: the appended byte leaves a stable state, which the loop does not touch. -/
theorem feedWaits : Obligations.FeedWaits := by
  intro b now s hpt hlt l hwait
  have hstable : Stable (append b (stampRx now s)) := by
    obtain hempty | hincomplete := hwait
    · exact .inl (by rw [append_rxLen, stampRx_rxLen]; omega)
    · exact .inr hincomplete
  rw [exec_feed_assembles b now s hpt (by omega), assemble_of_stable (by omega) hstable]
  rfl

end Sys2Proof.Machine
end

section
/-! `POLL`: the idle flush, then the link check (R121, R183). -/

namespace Sys2Proof.Machine

/-- The elapsed time (R14) is the least residue of the difference. -/
theorem cast_elapsed (c : Config) (a b : Nat) : (elapsed c a b : Int) = ((a : Int) - b) % 2 ^ c.timeW :=
  Int.toNat_of_nonneg (Int.emod_nonneg _ (by positivity))

/-- The idle test F6 over the integers (R121). -/
theorem idleExpired_iff (now : Nat) (s : State) :
    idleExpired now s = true ↔
      0 < s.rxLen ∧ (s.cfg.idleTimeout : Int) ≤ ((now : Int) - s.lastRxTime) % 2 ^ s.cfg.timeW := by
  rw [idleExpired, Bool.and_eq_true, decide_eq_true_iff, decide_eq_true_iff, ← cast_elapsed, Nat.cast_le]

/-- The link test F7 over the integers (R183). -/
theorem linkExpired_iff (now : Nat) (s : State) :
    linkExpired now s = true ↔
      s.linkUp = true ∧ (s.cfg.linkTimeout : Int) < ((now : Int) - s.lastChTime) % 2 ^ s.cfg.timeW := by
  rw [linkExpired, Bool.and_eq_true, decide_eq_true_iff, ← cast_elapsed, Nat.cast_lt]

/-- The idle part of `POLL` (R121): the flush of the whole buffer, or nothing. -/
theorem idleFlush_spec (now : Nat) (s : State) (hw : s.rxBuf.wf = true) :
    ∃ m : Memory, (¬ idleExpired now s = true → m = s.rxBuf) ∧ (∀ a, s.rxLen ≤ a + 1 → m.read a = s.rxBuf.read a) ∧
      idleFlush now s =
        { s with
          rxBuf := m
          rxLen := if idleExpired now s then 0 else s.rxLen
          events := s.events ++ if idleExpired now s then (buffered s).map Event.oob else [] } := by
  unfold idleFlush
  split
  next hidle =>
    obtain ⟨m, -, hread, hflush⟩ := flush_spec s.rxLen s hw le_rfl
    exact ⟨m, fun h => absurd hidle h, hread, hflush⟩
  next hbusy => exact ⟨s.rxBuf, fun _ => rfl, fun _ _ => rfl, by rw [List.append_nil]⟩

/-- The link part of `POLL` (R183) as one record update. -/
theorem linkCheck_eq (now : Nat) (s : State) :
    linkCheck now s =
      { s with
        linkUp := if linkExpired now s then false else s.linkUp
        events := s.events ++ if linkExpired now s then [Event.linkDown] else [] } := by
  rw [linkCheck_spec]
  split
  · rfl
  · rw [List.append_nil]

/-- `POLL` completes while the cursor is inside the buffer (R25). -/
theorem exec_poll_completes (now : Nat) {s : State} (h : s.rxLen ≤ s.cfg.rxCap) :
    exec (.poll now) s = .next (linkCheck now (idleFlush now s)) := by
  change execPoll now s = _
  rw [execPoll, decide_eq_false (Nat.not_lt.mpr h), Bool.and_false, if_neg Bool.false_ne_true]

/-- Settles O27: the flush does not touch what the link test reads, so both tests are those of the state before. -/
theorem pollResult : Obligations.PollResult := by
  intro now s hw hlen idle late
  obtain ⟨m, hkept, hread, hflush⟩ := idleFlush_spec now s hw
  have hlate : linkExpired now (idleFlush now s) = linkExpired now s := by rw [hflush]; rfl
  refine ⟨m, ?_, fun hbusy => hkept (hbusy ∘ (idleExpired_iff now s).mp), hread⟩
  rw [exec_poll_completes now hlen, linkCheck_eq, hlate, hflush]
  simp only [idleExpired_iff, linkExpired_iff, idle, late]

end Sys2Proof.Machine
end

section
/-! The two forms of `UNPACK11` and the inverse laws of the packing (R140, R144), bit by bit: bit `n` of the 176-bit integer
is bit `n mod 8` of byte `n div 8` and bit `n mod 11` of channel `n div 11`. -/

namespace Sys2Proof.Machine

theorem channelSet_ext {v w : ChannelSet}
    (h : ∀ i (hi : i < nCh) m, m < 11 → v[i].getLsbD m = w[i].getLsbD m) : v = w :=
  Vector.ext fun i hi => BitVec.eq_of_getLsbD_eq fun m hm => h i hi m hm

/-! The two forms of `UNPACK11` (R140). -/

/-- Bytes laid one above the other: each bit is that of the byte it lies in. -/
theorem testBit_three_bytes (a b c : Byte) (n : Nat) :
    (a.toNat ||| b.toNat <<< 8 ||| c.toNat <<< 16).testBit n =
      if n < 8 then a.getLsbD n else if n < 16 then b.getLsbD (n - 8) else c.getLsbD (n - 16) := by
  simp only [Nat.testBit_or, Nat.testBit_shiftLeft, BitVec.testBit_toNat]
  split
  next hlow => simp [show ¬ 8 ≤ n by omega, show ¬ 16 ≤ n by omega]
  next hlow =>
    rw [BitVec.getLsbD_of_ge a n (by omega)]
    split
    next hmid => simp [show 8 ≤ n by omega, show ¬ 16 ≤ n by omega]
    next hmid => simp [BitVec.getLsbD_of_ge b (n - 8) (by omega), show 16 ≤ n by omega]

/-- A window that begins below bit 6 ends in its second byte: the third byte of R140 is not missed there. -/
theorem getLsbD_window11 (p : List Byte) (i : Nat) {m : Nat} (hm : m < 11) :
    (window11 p i).getLsbD m = (p.getD ((11 * i + m) / 8) 0).getLsbD ((11 * i + m) % 8) := by
  have hthird (s : Nat) (c : Byte) :
      (if 6 ≤ s then c.toNat <<< 16 else 0) = (if 6 ≤ s then c else 0).toNat <<< 16 := by
    split <;> rfl
  simp only [window11, BitVec.getLsbD_ofNat, decide_eq_true hm, Bool.true_and, Nat.testBit_shiftRight, hthird,
    testBit_three_bytes]
  split
  next hlow => rw [show (11 * i + m) / 8 = 11 * i / 8 by omega, show (11 * i + m) % 8 = 11 * i % 8 + m by omega]
  next hlow =>
    split
    next hmid =>
      rw [show (11 * i + m) / 8 = 11 * i / 8 + 1 by omega, show (11 * i + m) % 8 = 11 * i % 8 + m - 8 by omega]
    next hhigh =>
      rw [if_pos (by omega), show (11 * i + m) / 8 = 11 * i / 8 + 2 by omega,
        show (11 * i + m) % 8 = 11 * i % 8 + m - 16 by omega]

theorem getElem_unpack11ByWindow (p : List Byte) {i : Nat} (hi : i < nCh) :
    (unpack11ByWindow p)[i] = window11 p i := by
  simp [unpack11ByWindow]

theorem unpack11_eq_unpack11ByWindow (p : List Byte) : unpack11 p = unpack11ByWindow p :=
  channelSet_ext fun i hi m hm => by
    rw [getLsbD_getElem_unpack11 p hi hm, getElem_unpack11ByWindow p hi, getLsbD_window11 p i hm]

/-- Only the first 22 bytes are read. -/
theorem unpack11_congr {p q : List Byte} (h : p.take chPayload = q.take chPayload) : unpack11 p = unpack11 q :=
  Vector.ext fun i hi => by rw [getElem_unpack11 p hi, getElem_unpack11 q hi, h]

/-- Settles O8: the two forms agree bit by bit, on a payload of any length. -/
theorem unpackFormsAgree : Obligations.UnpackFormsAgree := by
  intro P hP
  refine ⟨unpack11_eq_unpack11ByWindow P, fun Q => unpack11_congr ?_, fun i hi => toNat_getElem_unpack11 P hi⟩
  exact List.take_left' (List.length_take_of_le hP)

/-! The packing (R144). -/

/-- Bit `n` of the packed integer is bit `n mod 11` of channel `n div 11`; past the last channel both are zero. -/
theorem testBit_packNat (rs : List Raw) (n : Nat) :
    (packNat rs).testBit n = (rs.getD (n / 11) 0).getLsbD (n % 11) := by
  induction rs generalizing n with
  | nil => simp [packNat]
  | cons r rs ih =>
    have hcons : packNat (r :: rs) = 2 ^ 11 * packNat rs + r.toNat := Nat.add_comm _ _
    rw [hcons, Nat.testBit_two_pow_mul_add _ r.isLt]
    split
    next hlow => rw [Nat.div_eq_of_lt hlow, Nat.mod_eq_of_lt hlow, List.getD_cons_zero, BitVec.testBit_toNat]
    next hhigh =>
      have hchannel : n / 11 = (n - 11) / 11 + 1 := by omega
      have hbit : n % 11 = (n - 11) % 11 := by omega
      rw [ih, hchannel, hbit, List.getD_cons_succ]

/-- The packed integer as the sum of R144. -/
theorem packNat_eq_sum (rs : List Raw) :
    packNat rs = ((List.range rs.length).map (fun i => (rs.getD i 0).toNat <<< (11 * i))).sum := by
  induction rs with
  | nil => rfl
  | cons r rs ih =>
    have hshift (v i : Nat) : v <<< (11 * (i + 1)) = 2048 * v <<< (11 * i) := by
      rw [Nat.mul_succ, Nat.shiftLeft_add, Nat.shiftLeft_eq _ 11, Nat.mul_comm]
    rw [packNat, ih, ← List.sum_map_mul_left, List.length_cons, List.range_succ_eq_map]
    simp [Function.comp_def, hshift]

@[simp] theorem length_pack11 (raw : ChannelSet) : (pack11 raw).length = chPayload := by simp [pack11]

theorem getD_pack11 (raw : ChannelSet) {k : Nat} (hk : k < chPayload) :
    (pack11 raw).getD k 0 = BitVec.ofNat 8 (packNat raw.toList >>> (8 * k)) := by
  simp [pack11, hk]

theorem getLsbD_getD_pack11 (raw : ChannelSet) {k j : Nat} (hk : k < chPayload) (hj : j < 8) :
    ((pack11 raw).getD k 0).getLsbD j = (raw.toList.getD ((8 * k + j) / 11) 0).getLsbD ((8 * k + j) % 11) := by
  rw [getD_pack11 raw hk, BitVec.getLsbD_ofNat, decide_eq_true hj, Bool.true_and, Nat.testBit_shiftRight, testBit_packNat]

theorem toNat_getD_pack11 (raw : ChannelSet) {k : Nat} (hk : k < chPayload) :
    ((pack11 raw).getD k 0).toNat =
      (((List.range nCh).map (fun i => (raw.toList.getD i 0).toNat <<< (11 * i))).sum >>> (8 * k)) &&& 0xFF := by
  rw [getD_pack11 raw hk, BitVec.toNat_ofNat, packNat_eq_sum, Vector.length_toList]
  exact (Nat.and_two_pow_sub_one_eq_mod _ 8).symm

theorem getD_toList (raw : ChannelSet) {i : Nat} (hi : i < nCh) : raw.toList.getD i 0 = raw[i] := by
  simp [hi]

theorem unpack11_pack11 (raw : ChannelSet) : unpack11 (pack11 raw) = raw := by
  refine channelSet_ext fun i hi m hm => ?_
  have hbyte : (11 * i + m) / 8 < chPayload := by
    change i < 16 at hi
    change _ < 22
    omega
  rw [getLsbD_getElem_unpack11 _ hi hm, getLsbD_getD_pack11 raw hbyte (Nat.mod_lt _ (by decide)), Nat.div_add_mod,
    Nat.mul_add_div (by decide), Nat.mul_add_mod, Nat.div_eq_of_lt hm, Nat.mod_eq_of_lt hm, Nat.add_zero,
    getD_toList raw hi]

theorem pack11_unpack11 {p : List Byte} (hp : chPayload ≤ p.length) : pack11 (unpack11 p) = p.take chPayload := by
  refine List.ext_getElem (by simp [hp]) fun k hk _ => BitVec.eq_of_getLsbD_eq fun j hj => ?_
  rw [length_pack11] at hk
  have hchannel : (8 * k + j) / 11 < nCh := by
    change k < 22 at hk
    change _ < 16
    omega
  rw [← List.getD_eq_getElem _ 0, getLsbD_getD_pack11 _ hk hj, getD_toList _ hchannel,
    getLsbD_getElem_unpack11 p hchannel (Nat.mod_lt _ (by decide)), Nat.div_add_mod,
    Nat.mul_add_div (by decide), Nat.mul_add_mod, Nat.div_eq_of_lt hj, Nat.mod_eq_of_lt hj, Nat.add_zero,
    List.getElem_take, List.getD_eq_getElem]

/-- Settles O9: both directions split the position of a bit by 8 and by 11. -/
theorem packUnpackInverse : Obligations.PackUnpackInverse :=
  ⟨fun raw => ⟨length_pack11 raw, fun _ hk => toNat_getD_pack11 raw hk, unpack11_pack11 raw⟩,
    fun _ hP => pack11_unpack11 hP⟩

end Sys2Proof.Machine
end

section
/-! The raw and microsecond transforms (R142, R143) and `ENC.CH` (R145). -/

namespace Sys2Proof.Machine

/-! `RAW2US` (R142): each microsecond has a least raw value, its eight fifths rounded up. -/

theorem raw2us_bounds (r : Raw) : 880 ≤ raw2us r ∧ raw2us r ≤ 2159 := by
  have hr := r.isLt
  rw [raw2us]
  omega

theorem raw2us_mono {r q : Raw} (h : r.toNat ≤ q.toNat) : raw2us r ≤ raw2us q := by
  rw [raw2us, raw2us]
  gcongr

theorem exists_raw2us_eq {u : Nat} (hlo : 880 ≤ u) (hhi : u ≤ 2159) : ∃ r : Raw, raw2us r = u := by
  have hr : ((u - 880) * 8 + 4) / 5 < 2 ^ 11 := by omega
  refine ⟨BitVec.ofNat 11 (((u - 880) * 8 + 4) / 5), ?_⟩
  rw [raw2us, BitVec.toNat_ofNat, Nat.mod_eq_of_lt hr]
  omega

/-- Settles O10: the raw values 0 and 1 both decode to 880. -/
theorem rawToMicroseconds : Obligations.RawToMicroseconds :=
  ⟨fun r => ⟨rfl, raw2us_bounds r⟩, fun _ _ h => raw2us_mono h, fun _ hlo hhi => exists_raw2us_eq hlo hhi,
    0#11, 1#11, by decide, by decide⟩

/-! `US2RAW` (R143). -/

theorem us2raw_of_mem {u : Nat} (hlo : 880 ≤ u) (hhi : u ≤ 2159) :
    us2raw u = some (BitVec.ofNat 11 (u * 8 / 5 - 1408)) := if_pos ⟨hlo, hhi⟩

theorem us2raw_eq_none_iff (u : Nat) : us2raw u = none ↔ u < 880 ∨ 2159 < u := by
  rw [us2raw]
  split
  next hin => exact iff_of_false nofun (by omega)
  next hout => exact iff_of_true rfl (by omega)

/-- In range the difference of R143 is not negative and fits 11 bits: no truncation in `us2raw_of_mem`. -/
theorem exists_us2raw_eq_some {u : Nat} (hlo : 880 ≤ u) (hhi : u ≤ 2159) :
    ∃ r : Raw, us2raw u = some r ∧ r.toNat + 1408 = u * 8 / 5 ∧ r.toNat ≤ 2046 := by
  refine ⟨_, us2raw_of_mem hlo hhi, ?_⟩
  have hfits : u * 8 / 5 - 1408 < 2 ^ 11 := by omega
  rw [BitVec.toNat_ofNat, Nat.mod_eq_of_lt hfits]
  omega

/-- Settles O11: the value in range, the refusal outside. -/
theorem microsecondsToRaw : Obligations.MicrosecondsToRaw :=
  ⟨fun _ hlo hhi => exists_us2raw_eq_some hlo hhi, fun u hu => (us2raw_eq_none_iff u).mpr hu⟩

/-! `ENC.CH` (R145). -/

/-- One operand without a raw value refuses them all, and nothing else does. -/
theorem rawOfUs_eq_none_iff (us : List Nat) : rawOfUs us = none ↔ ∃ u ∈ us, us2raw u = none := by
  induction us with
  | nil => simp [rawOfUs]
  | cons u us ih =>
    rw [List.exists_mem_cons_iff, ← ih, rawOfUs]
    cases us2raw u with
    | none => simp
    | some r => cases rawOfUs us <;> simp

theorem exists_rawOfUs_eq_some {us : List Nat} (h : ∀ u ∈ us, 880 ≤ u ∧ u ≤ 2159) :
    ∃ rs, rawOfUs us = some rs ∧ rs.map BitVec.toNat = us.map (fun u => u * 8 / 5 - 1408) := by
  induction us with
  | nil => exact ⟨[], rfl, rfl⟩
  | cons u us ih =>
    obtain ⟨⟨hlo, hhi⟩, htail⟩ := List.forall_mem_cons.mp h
    obtain ⟨r, hr, hval, -⟩ := exists_us2raw_eq_some hlo hhi
    obtain ⟨rs, hrs, hvals⟩ := ih htail
    refine ⟨r :: rs, by rw [rawOfUs, hr, hrs], ?_⟩
    rw [List.map_cons, List.map_cons, hvals, ← hval, Nat.add_sub_cancel]

theorem encCh_of_rawOfUs_eq_none {us : List Nat} (h : rawOfUs us = none) : encCh us = none := by
  rw [encCh, h]

theorem encCh_of_rawOfUs_eq_some {us : List Nat} {rs : List Raw} (h : rawOfUs us = some rs) (hlen : rs.length = nCh) :
    encCh us = some (pack11 ⟨⟨rs⟩, hlen⟩) := by
  rw [encCh, h]
  exact dif_pos hlen

/-- Settles O13: sixteen operands in range give sixteen raw values, which are packed. -/
theorem encodeChannels : Obligations.EncodeChannels := by
  intro us hlen
  refine ⟨fun hin => ?inRange, fun ⟨u, hu, hout⟩ => encCh_of_rawOfUs_eq_none ?outOfRange⟩
  case inRange =>
    obtain ⟨rs, hrs, hvals⟩ := exists_rawOfUs_eq_some hin
    have hcount : rs.length = nCh := by
      rw [← List.length_map BitVec.toNat, hvals, List.length_map, hlen]
    exact ⟨⟨⟨rs⟩, hcount⟩, encCh_of_rawOfUs_eq_some hrs hcount, hvals⟩
  case outOfRange => exact (rawOfUs_eq_none_iff us).mpr ⟨u, hu, (us2raw_eq_none_iff u).mpr hout⟩

end Sys2Proof.Machine
end

section
/-! `DEC.CH` (R141): a short payload is dropped, any other is decoded and counts as a heartbeat. -/

namespace Sys2Proof.Machine

theorem exec_decCh (p : List Byte) (now : Nat) (s : State) : exec (.decCh p now) s = .next (decodeCh p now s) :=
  exec_frame _ s rfl

/-- R86 and R182: not even a heartbeat. -/
theorem decodeCh_of_short {p : List Byte} (now : Nat) (s : State) (h : p.length < chPayload) : decodeCh p now s = s :=
  if_pos h

theorem decodeCh_of_complete {p : List Byte} (now : Nat) (s : State) (h : chPayload ≤ p.length) :
    decodeCh p now s =
      emit (.channels (unpack11 p) (usOf (unpack11 p))) (linkBeat now (setChRaw (unpack11 p) s)) :=
  if_neg (Nat.not_lt.mpr h)

/-- Settles O14: the heartbeat of R181 lies between the write of the channels and the report. -/
theorem decChResult : Obligations.DecChResult := by
  intro P now s
  refine ⟨fun hshort => ?_, fun hcomplete => ?_⟩
  · rw [exec_decCh, decodeCh_of_short now s hshort]
  · rw [exec_decCh, decodeCh_of_complete now s hcomplete, linkBeat_spec]
    rfl

end Sys2Proof.Machine
end

section
/-! Big-endian fields (R155, R156, R168): `BE_U` grows at both ends of a sequence, `BE_I` is its balanced residue, and `PUT_BE`
grows at its last byte as `BE_U` does. -/

namespace Sys2Proof.Machine

/-! `BE_U` (R155). -/

/-- A byte in front is the most significant one. -/
theorem beU_cons (b : Byte) (s : List Byte) : beU (b :: s) = b.toNat * 256 ^ s.length + beU s := by
  induction s using List.reverseRecOn with
  | nil => simp [beU]
  | append_singleton s c ih =>
    rw [← List.cons_append, beU_append, beU_append, ih, List.length_append, List.length_singleton, pow_succ]
    ring

theorem beU_eq_sum (s : List Byte) :
    beU s = ((List.range s.length).map (fun j => (s.getD j 0).toNat * 256 ^ (s.length - 1 - j))).sum := by
  induction s with
  | nil => rfl
  | cons b s ih =>
    have hexp (j : Nat) : s.length + 1 - 1 - (j + 1) = s.length - 1 - j := by omega
    rw [beU_cons, ih, List.length_cons, List.range_succ_eq_map, List.map_cons, List.sum_cons, List.map_map]
    simp only [Function.comp_def, List.getD_cons_zero, List.getD_cons_succ, Nat.succ_eq_add_one, hexp]
    rfl

/-- The first byte is the quotient by the weight of the rest. -/
theorem beU_cons_div (b : Byte) (s : List Byte) : beU (b :: s) / 256 ^ s.length = b.toNat := by
  rw [beU_cons, Nat.mul_comm, Nat.mul_add_div (by positivity), Nat.div_eq_of_lt (beU_lt s), Nat.add_zero]

/-! `BE_I` (R156). -/

/-- Sign extension picks the representative around zero. -/
theorem sext_eq_bmod {n v : Nat} (hv : v < 2 ^ n) : sext n v = (v : Int).bmod (2 ^ n) := by
  have hhalf : (2 ^ n + 1) / 2 = 2 ^ (n - 1) := by
    cases n with
    | zero => rfl
    | succ n => rw [Nat.add_sub_cancel, pow_succ]; omega
  have hmod : (v : Int) % ((2 ^ n : Nat) : Int) = v := Int.emod_eq_of_lt (by omega) (by exact_mod_cast hv)
  have hcond : ((v : Int) < (((2 ^ n : Nat) : Int) + 1) / 2) ↔ v < 2 ^ (n - 1) := by omega
  rw [Int.bmod_def, hmod, if_congr hcond rfl rfl, Nat.cast_pow]
  rfl

theorem beI_eq_bmod (s : List Byte) : beI s = (beU s : Int).bmod (256 ^ s.length) := by
  have hpow : 2 ^ (8 * s.length) = 256 ^ s.length := Nat.pow_mul 2 8 s.length
  rw [beI, sext_eq_bmod (hpow ▸ beU_lt s), hpow]

/-- The sign is the top bit of the first byte. -/
theorem beI_cons (b : Byte) (s : List Byte) :
    beI (b :: s) = if b.toNat < 0x80 then (beU (b :: s) : Int) else (beU (b :: s) : Int) - 256 ^ (s.length + 1) := by
  have hhalf : 2 ^ (8 * (s.length + 1) - 1) = 128 * 256 ^ s.length := by
    rw [show 8 * (s.length + 1) - 1 = 7 + 8 * s.length by omega, pow_add, pow_mul]; rfl
  have hsign : beU (b :: s) < 128 * 256 ^ s.length ↔ b.toNat < 0x80 := by
    rw [← Nat.div_lt_iff_lt_mul (by positivity), beU_cons_div]
  have hpow : (2 : Int) ^ (8 * (s.length + 1)) = 256 ^ (s.length + 1) := pow_mul 2 8 _
  rw [beI, sext, List.length_cons, hhalf, hpow]
  simp only [hsign]

/-- Settles O5: the sum, its bound, and the sign by the first byte. -/
theorem bigEndianFields : Obligations.BigEndianFields :=
  ⟨fun s => ⟨beU_eq_sum s, beU_lt s⟩, beI_cons⟩

/-! `PUT_BE` (R168). -/

theorem toNat_getD_putBe (v : Int) {n j : Nat} (hj : j < n) :
    ((putBe v n).getD j 0).toNat = (v % 256 ^ n).toNat >>> (8 * (n - 1 - j)) &&& 0xFF := by
  simp only [putBe, List.getD_eq_getElem?_getD, List.getElem?_map, List.getElem?_range hj, Option.map_some,
    Option.getD_some, BitVec.toNat_ofNat]
  exact (Nat.and_two_pow_sub_one_eq_mod _ 8).symm

/-- The residue of `n + 1` bytes is that of the upper `n`, then the lowest byte. -/
theorem emod_pow_succ (v : Int) (n : Nat) : v % 256 ^ (n + 1) = v / 256 % 256 ^ n * 256 + v % 256 := by
  rw [Int.emod_def v (256 ^ (n + 1)), Int.emod_def (v / 256), Int.ediv_ediv_of_nonneg (by decide), ← pow_succ', pow_succ',
    Int.mul_assoc]
  omega

/-- A byte behind is the least significant one. -/
theorem putBe_succ (v : Int) (n : Nat) : putBe v (n + 1) = putBe (v / 256) n ++ [BitVec.ofInt 8 v] := by
  have hres : (v % 256 ^ (n + 1)).toNat = (v / 256 % 256 ^ n).toNat * 256 + (v % 256).toNat := by
    have := emod_pow_succ v n
    have := Int.emod_nonneg (v / 256) (b := 256 ^ n) (by positivity)
    omega
  rw [putBe, putBe, List.range_succ, List.map_append]
  refine congrArg₂ (· ++ ·) (List.map_congr_left fun j hj => ?upper) (congrArg (fun b => [b]) ?lowest)
  case upper =>
    have hshift : 8 * (n + 1 - 1 - j) = 8 + 8 * (n - 1 - j) := by have := List.mem_range.mp hj; omega
    have hdrop : (v % 256 ^ (n + 1)).toNat >>> 8 = (v / 256 % 256 ^ n).toNat := by
      rw [Nat.shiftRight_eq_div_pow]; omega
    rw [hshift, Nat.shiftRight_add, hdrop]
  case lowest =>
    refine BitVec.eq_of_toNat_eq ?_
    rw [BitVec.toNat_ofNat, BitVec.toNat_ofInt, Nat.add_sub_cancel, Nat.sub_self, Nat.mul_zero, Nat.shiftRight_zero, hres]
    omega

/-- `PUT_BE` keeps the residue, whatever the value. -/
theorem beU_putBe (v : Int) (n : Nat) : (beU (putBe v n) : Int) = v % 256 ^ n := by
  induction n generalizing v with
  | zero => exact (Int.emod_one v).symm
  | succ n ih =>
    have hbyte : ((BitVec.ofInt 8 v).toNat : Int) = v % 256 := by
      rw [BitVec.toNat_ofInt]; omega
    rw [putBe_succ, beU_append, Nat.cast_add, Nat.cast_mul, ih, hbyte, emod_pow_succ]
    rfl

theorem putBe_beU (s : List Byte) : putBe (beU s) s.length = s := by
  induction s using List.reverseRecOn with
  | nil => rfl
  | append_singleton s b ih =>
    have hhead : ((beU s * 256 + b.toNat : Nat) : Int) / 256 = beU s := by omega
    have hlast : BitVec.ofInt 8 ((beU s * 256 + b.toNat : Nat) : Int) = b := by
      apply BitVec.eq_of_toNat_eq
      rw [BitVec.toNat_ofInt]
      omega
    rw [List.length_append, List.length_singleton, putBe_succ, beU_append, hhead, ih, hlast]

theorem beU_putBe_of_mem {v : Int} {n : Nat} (hlo : 0 ≤ v) (hhi : v < 256 ^ n) : (beU (putBe v n) : Int) = v := by
  rw [beU_putBe, Int.emod_eq_of_lt hlo hhi]

theorem beI_putBe_of_mem {v : Int} {n : Nat} (hlo : -(256 ^ n / 2) ≤ v) (hhi : v < 256 ^ n / 2) : beI (putBe v n) = v := by
  have hcast : ((256 ^ n : Nat) : Int) = 256 ^ n := Nat.cast_pow 256 n
  rw [beI_eq_bmod, putBe_length, beU_putBe, ← hcast, Int.emod_bmod]
  exact Int.bmod_eq_of_le (by omega) (by omega)

theorem putField_unsigned (v : Int) (n : Nat) :
    putField n false v = if 0 ≤ v ∧ v < 256 ^ n then some (putBe v n) else none := by
  simp [putField, fits, fitsU]

theorem putField_signed (v : Int) (n : Nat) :
    putField n true v = if -(256 ^ n / 2) ≤ v ∧ v < 256 ^ n / 2 then some (putBe v n) else none := by
  simp [putField, fits, fitsI]

/-- Settles O6: the bytes, the refusals, and a round trip for each range and for the bytes themselves. -/
theorem putBigEndianRoundTrips : Obligations.PutBigEndianRoundTrips :=
  ⟨fun v n => ⟨putBe_length v n, fun _ hj => toNat_getD_putBe v hj⟩, putField_unsigned, putField_signed,
    fun _ _ hlo hhi => beU_putBe_of_mem hlo hhi, fun _ _ hlo hhi => beI_putBe_of_mem hlo hhi, putBe_beU⟩

end Sys2Proof.Machine
end

section
/-! The sensor decoders with a fixed layout (R157 to R160) and `DEC.UNK` (R162): one, two, three and four bytes as bit
vectors, what each decoder reads from a payload given byte by byte, and what the operation then does. -/

namespace Sys2Proof.Machine

/-! A field as the concatenation of its bytes (R155, R156). -/

theorem toNat_append_byte {w : Nat} (x : BitVec w) (b : Byte) : (x ++ b).toNat = x.toNat * 256 + b.toNat := by
  rw [BitVec.toNat_append, ← Nat.shiftLeft_add_eq_or_of_lt b.isLt, Nat.shiftLeft_eq]

theorem beU_one (a : Byte) : beU [a] = a.toNat := by simp [beU]

theorem beU_two (a b : Byte) : beU [a, b] = (a ++ b).toNat := by
  rw [toNat_append_byte, ← beU_one, ← beU_append]; rfl

theorem beU_three (a b c : Byte) : beU [a, b, c] = (a ++ b ++ c).toNat := by
  rw [toNat_append_byte, ← beU_two, ← beU_append]; rfl

theorem beU_four (a b c d : Byte) : beU [a, b, c, d] = (a ++ b ++ c ++ d).toNat := by
  rw [toNat_append_byte, ← beU_three, ← beU_append]; rfl

/-- Two's complement needs only the width and the unsigned value. -/
theorem beI_eq_toInt {w : Nat} {x : BitVec w} {s : List Byte} (hw : 8 * s.length = w) (hx : beU s = x.toNat) :
    beI s = x.toInt := by
  subst hw
  rw [beI, hx, sext_eq_bmod x.isLt, BitVec.toInt_eq_toNat_bmod]

theorem beI_one (a : Byte) : beI [a] = a.toInt := beI_eq_toInt rfl (beU_one a)

theorem beI_two (a b : Byte) : beI [a, b] = (a ++ b).toInt := beI_eq_toInt rfl (beU_two a b)

theorem beI_four (a b c d : Byte) : beI [a, b, c, d] = (a ++ b ++ c ++ d).toInt := beI_eq_toInt rfl (beU_four a b c d)

/-- The two readings of a field's bytes (R82). -/
theorem field_eq_beU (p : List Byte) (o n : Nat) : field p o n false = (beU ((p.drop o).take n) : Int) := rfl

theorem field_eq_beI (p : List Byte) (o n : Nat) : field p o n true = beI ((p.drop o).take n) := rfl

/-! `DEC.LS` (R157). -/

theorem exec_decLs (p : List Byte) (s : State) : exec (.decLs p) s = .next (decodeLs p s) := exec_frame _ s rfl

theorem decodeLs_of_short {p : List Byte} (s : State) (h : p.length < 10) : decodeLs p s = s := if_pos h

theorem decodeLs_of_complete {p : List Byte} (s : State) (h : 10 ≤ p.length) :
    decodeLs p s = emit (.linkStats (readLs p)) (setLs (readLs p) s) := if_neg (Nat.not_lt.mpr h)

theorem readLs_cons (b0 b1 b2 b3 b4 b5 b6 b7 b8 b9 : Byte) (rest : List Byte) :
    readLs (b0 :: b1 :: b2 :: b3 :: b4 :: b5 :: b6 :: b7 :: b8 :: b9 :: rest) = {
      upRssi1 := b0.toNat, upRssi2 := b1.toNat, upLq := b2.toNat, upSnr := b3.toInt, antenna := b4.toNat,
      rfMode := b5.toNat, txPower := b6.toNat, dnRssi := b7.toNat, dnLq := b8.toNat, dnSnr := b9.toInt } := by
  simp [readLs, field_eq_beU, field_eq_beI, beU_one, beI_one]

/-- Settles O15: the ten bytes one by one. -/
theorem decLsResult : Obligations.DecLsResult := by
  refine ⟨fun P s hshort => ?_, fun b0 b1 b2 b3 b4 b5 b6 b7 b8 b9 rest s => ?_⟩
  · rw [exec_decLs, decodeLs_of_short s hshort]
  · rw [exec_decLs, decodeLs_of_complete s (by simp), readLs_cons]; rfl

/-! `DEC.GPS` (R158). -/

theorem exec_decGps (p : List Byte) (s : State) : exec (.decGps p) s = .next (decodeGps p s) := exec_frame _ s rfl

theorem decodeGps_of_short {p : List Byte} (s : State) (h : p.length < 15) : decodeGps p s = s := if_pos h

theorem decodeGps_of_complete {p : List Byte} (s : State) (h : 15 ≤ p.length) :
    decodeGps p s = emit (.gps (readGps p)) (setGps (readGps p) s) := if_neg (Nat.not_lt.mpr h)

theorem readGps_cons (b0 b1 b2 b3 b4 b5 b6 b7 b8 b9 b10 b11 b12 b13 b14 : Byte) (rest : List Byte) :
    readGps (b0 :: b1 :: b2 :: b3 :: b4 :: b5 :: b6 :: b7 :: b8 :: b9 :: b10 :: b11 :: b12 :: b13 :: b14 :: rest) = {
      lat := (b0 ++ b1 ++ b2 ++ b3).toInt, lon := (b4 ++ b5 ++ b6 ++ b7).toInt,
      groundspeed := (b8 ++ b9).toNat, heading := (b10 ++ b11).toNat, altitude := (b12 ++ b13).toNat,
      satellites := b14.toNat } := by
  simp [readGps, field_eq_beU, field_eq_beI, beI_four, beU_two, beU_one]

/-- Settles O16: the fifteen bytes, field by field. -/
theorem decGpsResult : Obligations.DecGpsResult := by
  refine ⟨fun P s hshort => ?_, fun b0 b1 b2 b3 b4 b5 b6 b7 b8 b9 b10 b11 b12 b13 b14 rest s => ?_⟩
  · rw [exec_decGps, decodeGps_of_short s hshort]
  · rw [exec_decGps, decodeGps_of_complete s (by simp), readGps_cons]; rfl

/-! `DEC.BAT` (R159). -/

theorem exec_decBat (p : List Byte) (s : State) : exec (.decBat p) s = .next (decodeBat p s) := exec_frame _ s rfl

theorem decodeBat_of_short {p : List Byte} (s : State) (h : p.length < 8) : decodeBat p s = s := if_pos h

theorem decodeBat_of_complete {p : List Byte} (s : State) (h : 8 ≤ p.length) :
    decodeBat p s = emit (.battery (readBat p)) (setBat (readBat p) s) := if_neg (Nat.not_lt.mpr h)

theorem readBat_cons (b0 b1 b2 b3 b4 b5 b6 b7 : Byte) (rest : List Byte) :
    readBat (b0 :: b1 :: b2 :: b3 :: b4 :: b5 :: b6 :: b7 :: rest) = {
      voltage := (b0 ++ b1).toNat, current := (b2 ++ b3).toNat, capacity := (b4 ++ b5 ++ b6).toNat,
      remaining := b7.toNat } := by
  simp [readBat, field_eq_beU, beU_three, beU_two, beU_one]

/-- Settles O17: the eight bytes, three of them the capacity. -/
theorem decBatResult : Obligations.DecBatResult := by
  refine ⟨fun P s hshort => ?_, fun b0 b1 b2 b3 b4 b5 b6 b7 rest s => ?_⟩
  · rw [exec_decBat, decodeBat_of_short s hshort]
  · rw [exec_decBat, decodeBat_of_complete s (by simp), readBat_cons]; rfl

/-! `DEC.ATT` (R160). -/

theorem exec_decAtt (p : List Byte) (s : State) : exec (.decAtt p) s = .next (decodeAtt p s) := exec_frame _ s rfl

theorem decodeAtt_of_short {p : List Byte} (s : State) (h : p.length < 6) : decodeAtt p s = s := if_pos h

theorem decodeAtt_of_complete {p : List Byte} (s : State) (h : 6 ≤ p.length) :
    decodeAtt p s = emit (.attitude (readAtt p)) (setAtt (readAtt p) s) := if_neg (Nat.not_lt.mpr h)

theorem readAtt_cons (b0 b1 b2 b3 b4 b5 : Byte) (rest : List Byte) :
    readAtt (b0 :: b1 :: b2 :: b3 :: b4 :: b5 :: rest) =
      { pitch := (b0 ++ b1).toInt, roll := (b2 ++ b3).toInt, yaw := (b4 ++ b5).toInt } := by
  simp [readAtt, field_eq_beI, beI_two]

/-- Settles O18: three signed pairs of bytes. -/
theorem decAttResult : Obligations.DecAttResult := by
  refine ⟨fun P s hshort => ?_, fun b0 b1 b2 b3 b4 b5 rest s => ?_⟩
  · rw [exec_decAtt, decodeAtt_of_short s hshort]
  · rw [exec_decAtt, decodeAtt_of_complete s (by simp), readAtt_cons]; rfl

/-! `DEC.UNK` (R162). -/

/-- Settles O20: the frame operation of an unknown type is the identity. -/
theorem decUnkResult : Obligations.DecUnkResult := fun t P s => exec_frame (.decUnk t P) s rfl

end Sys2Proof.Machine
end

section
/-! `DEC.PARAM` (R161): what a layout descriptor reads from a payload, entry by entry, and what the six operations do with
it. -/

namespace Sys2Proof.Machine

@[simp] theorem length_headFields (fs : List Field) (o : Nat) (p : List Byte) : (headFields fs o p).length = fs.length := by
  induction fs generalizing o with
  | nil => rfl
  | cons f fs ih => rw [headFields, List.length_cons, ih, List.length_cons]

/-- A head field is read behind all those before it. -/
theorem getElem?_headFields {fs : List Field} {j : Nat} {f : Field} (o : Nat) (p : List Byte) (h : fs[j]? = some f) :
    (headFields fs o p)[j]? = some (field p (o + ((fs.take j).map Field.width).sum) f.width f.signed) := by
  induction fs generalizing o j with
  | nil => cases h
  | cons g fs ih =>
    cases j with
    | zero =>
      obtain rfl : g = f := Option.some.inj h
      rfl
    | succ j =>
      rw [headFields, List.getElem?_cons_succ, ih (o + g.width) h, List.take_succ_cons, List.map_cons, List.sum_cons,
        Nat.add_assoc]

/-- As many slots as fit and are allowed. -/
theorem length_slotFields (a : SlotArray) (o : Nat) (p : List Byte) :
    (slotFields (some a) o p).length = min a.maxCount ((p.length - o) / a.width) := by
  simp [slotFields]

theorem getElem?_slotFields {a : SlotArray} {o j : Nat} {p : List Byte} (h : j < (slotFields (some a) o p).length) :
    (slotFields (some a) o p)[j]? = some (field p (o + j * a.width) a.width a.signed) := by
  rw [length_slotFields] at h
  rw [slotFields, List.getElem?_map, List.getElem?_range h, Option.map_some]

/-- The six operations are one, indexed by the sensor. -/
theorem exec_decParam (x : SensorId) (p : List Byte) (s : State) :
    exec (Instr.decParam x p) s = .next (decodeParam x p s) := by
  cases x <;> rfl

theorem decodeParam_of_none {x : SensorId} {s : State} (p : List Byte) (h : s.cfg.sensorLayout.get x = none) :
    decodeParam x p s = s := by
  rw [decodeParam, h]; rfl

theorem decodeParam_of_short {x : SensorId} {d : Layout} {p : List Byte} {s : State}
    (h : s.cfg.sensorLayout.get x = some d) (hlen : p.length < d.size) : decodeParam x p s = s := by
  rw [decodeParam, h]; exact if_pos hlen

theorem decodeParam_of_complete {x : SensorId} {d : Layout} {p : List Byte} {s : State}
    (h : s.cfg.sensorLayout.get x = some d) (hlen : d.size ≤ p.length) :
    decodeParam x p s = emit (.sensor x (readLayout d p)) (setSens x (readLayout d p) s) := by
  rw [decodeParam, h]; exact if_neg (Nat.not_lt.mpr hlen)

theorem eq_decParam_of_mem {x : SensorId} {i : List Byte → Instr}
    (h : (x, i) ∈ [(SensorId.vario, Instr.decParamVario), (.baro, .decParamBaro), (.airspeed, .decParamAirspeed),
      (.rpm, .decParamRpm), (.temp, .decParamTemp), (.cells, .decParamCells)]) : i = Instr.decParam x := by
  simp only [List.mem_cons, List.not_mem_nil, or_false, Prod.mk.injEq] at h
  obtain ⟨rfl, rfl⟩ | ⟨rfl, rfl⟩ | ⟨rfl, rfl⟩ | ⟨rfl, rfl⟩ | ⟨rfl, rfl⟩ | ⟨rfl, rfl⟩ := h <;> rfl

/-- Settles O19: the record written is the one its layout reads. -/
theorem decParamResult : Obligations.DecParamResult := by
  intro x i hi P s
  obtain rfl := eq_decParam_of_mem hi
  refine ⟨fun hnone => ?noLayout, fun d hd => ⟨fun hshort => ?short, fun hlen =>
    ⟨readLayout d P, ?written, ?headLength, ?headValues, ?noSlots, ?slots⟩⟩⟩
  case noLayout => rw [exec_decParam, decodeParam_of_none P hnone]
  case short => rw [exec_decParam, decodeParam_of_short hd hshort]
  case written => rw [exec_decParam, decodeParam_of_complete hd hlen]; rfl
  case headLength => exact length_headFields d.head 0 P
  case headValues =>
    intro j f hf
    have hread := getElem?_headFields 0 P hf
    rwa [Nat.zero_add] at hread
  case noSlots =>
    intro hslots
    rw [readLayout, hslots]; rfl
  case slots =>
    intro a ha
    have hread : (readLayout d P).slots = slotFields (some a) d.size P := by rw [readLayout, ha]
    rw [hread]
    exact ⟨length_slotFields a d.size P, fun j hj => getElem?_slotFields hj⟩

end Sys2Proof.Machine
end

section
/-! The outbound frame composer (45_frame_composer.md): when the gates of `SEND` are shut, what it does in either case, and
the typed sends through it. -/

namespace Sys2Proof.Machine

/-- The link gate (R193). -/
theorem linkGateShut_iff (s : State) : linkGateShut s = true ↔ s.cfg.sendRequiresLinkUp = true ∧ s.linkUp = false := by
  rw [linkGateShut, Bool.and_eq_true, Bool.not_eq_true']

/-- The gates in the order of R191, R192, R193. -/
theorem sendShut_iff (p : List Byte) (s : State) :
    sendShut p s = true ↔ s.cfg.maxFrameSize < p.length + 2 ∨ s.passthrough = true ∨
      (s.cfg.sendRequiresLinkUp = true ∧ s.linkUp = false) := by
  rw [sendShut, Bool.or_eq_true, Bool.or_eq_true, decide_eq_true_iff, linkGateShut_iff, or_assoc]

theorem exec_send (addr type : Byte) (p : List Byte) (s : State) :
    exec (.send addr type p) s = .next (sendFrame addr type p s) := rfl

theorem sendFrame_of_shut {p : List Byte} {s : State} (addr type : Byte) (h : sendShut p s = true) :
    sendFrame addr type p s = { s with accepted := some false } := by
  rw [sendFrame_spec, if_pos h]

theorem sendFrame_of_open {p : List Byte} {s : State} (addr type : Byte) (h : ¬ sendShut p s = true) :
    sendFrame addr type p s = { s with tx := s.tx ++ buildFrame addr type p, accepted := some true } := by
  rw [sendFrame_spec, if_neg h]

/-- The layout of R194, each byte written out. -/
theorem buildFrame_eq (addr type : Byte) (p : List Byte) :
    buildFrame addr type p = [addr, BitVec.ofNat 8 (p.length + 2), type] ++ p ++ [crc8 (type :: p)] := rfl

/-- The size gate (R191) keeps the length byte from wrapping. -/
theorem toNat_lengthByte_of_open {p : List Byte} {s : State} (h : ¬ sendShut p s = true)
    (hmax : s.cfg.maxFrameSize ≤ 255) : (BitVec.ofNat 8 (p.length + 2)).toNat = p.length + 2 := by
  have hfits : ¬ s.cfg.maxFrameSize < p.length + 2 := fun hlong => h ((sendShut_iff p s).mpr (.inl hlong))
  rw [BitVec.toNat_ofNat, Nat.mod_eq_of_lt (by omega)]

/-- Settles O25: the three gates are one test, which decides between the no-op and the frame. -/
theorem sendResult : Obligations.SendResult := by
  intro addr type P s
  simp only [← sendShut_iff]
  refine ⟨fun hshut => ?refused, fun hopen => ⟨?accepted, toNat_lengthByte_of_open hopen⟩⟩
  case refused => rw [exec_send, sendFrame_of_shut addr type hshut]
  case accepted => rw [exec_send, sendFrame_of_open addr type hopen, buildFrame_eq]

/-! The typed sends (R197): all six are `sendEncoded`, so two facts about it serve each of them. -/

/-- What the encoder gave is sent. -/
theorem next_sendEncoded_of_some {e : Option (List Byte)} {p : List Byte} (addr type : Byte) (s : State)
    (h : e = some p) : Host.Outcome.next (sendEncoded addr type e s) = exec (.send addr type p) s := by
  rw [h, sendEncoded_spec, Option.elim_some, exec_send]

/-- A refused operand sends nothing. -/
theorem sendEncoded_of_none {e : Option (List Byte)} (addr type : Byte) (s : State) (h : e = none) :
    sendEncoded addr type e s = { s with accepted := some false } := by
  rw [h, sendEncoded_spec, Option.elim_none]

/-- Settles O26: the encoder's answer decides, whatever the record. -/
theorem typedSends : Obligations.TypedSends := by
  intro addr s
  refine ⟨?chSent, ?lsSent, ?gpsSent, ?batSent, ?attSent, ?paramSent,
    ?chRefused, ?lsRefused, ?gpsRefused, ?batRefused, ?attRefused, ?paramRefused⟩
  case chSent => exact fun _ _ => next_sendEncoded_of_some addr s.cfg.typeCh s
  case lsSent => exact fun _ _ => next_sendEncoded_of_some addr s.cfg.typeLs s
  case gpsSent => exact fun _ _ => next_sendEncoded_of_some addr s.cfg.typeGps s
  case batSent => exact fun _ _ => next_sendEncoded_of_some addr s.cfg.typeBat s
  case attSent => exact fun _ _ => next_sendEncoded_of_some addr s.cfg.typeAtt s
  case paramSent => exact fun x _ _ => next_sendEncoded_of_some addr (s.cfg.typeSensor.get x) s
  case chRefused => exact fun _ => sendEncoded_of_none addr s.cfg.typeCh s
  case lsRefused => exact fun _ => sendEncoded_of_none addr s.cfg.typeLs s
  case gpsRefused => exact fun _ => sendEncoded_of_none addr s.cfg.typeGps s
  case batRefused => exact fun _ => sendEncoded_of_none addr s.cfg.typeBat s
  case attRefused => exact fun _ => sendEncoded_of_none addr s.cfg.typeAtt s
  case paramRefused => exact fun x _ => sendEncoded_of_none addr (s.cfg.typeSensor.get x) s

end Sys2Proof.Machine
end

section
/-! The passthrough gate (46_passthrough_gate.md): the write of the flag (R200) and what the flag does to a received byte
(R201), each as an update of the whole state, so that what is not named is unchanged. -/

namespace Sys2Proof.Machine

theorem setPassthrough_eq (v : Bool) (s : State) : setPassthrough v s = { s with passthrough := v } := rfl

theorem emit_eq (e : Event) (s : State) : emit e s = { s with events := s.events ++ [e] } := rfl

theorem exec_ptSet (v : Bool) (s : State) : exec (.ptSet v) s = .next (setPassthrough v s) := rfl

/-- Settles O24: `PT.SET` is its one flag write, in every state and for either value. -/
theorem ptSetResult : Obligations.PtSetResult := by
  intro v s
  rw [exec_ptSet, setPassthrough_eq]

/-- Settles O29: the gate is tested first, so the byte is reported and no stage of the assembler runs. -/
theorem feedUnderPassthrough : Obligations.FeedUnderPassthrough := by
  intro b now s hpt
  rw [exec_feed_passthrough b now hpt, emit_eq]

end Sys2Proof.Machine
end

section
/-! The overflow under `BEFORE_EVAL` (60_exceptions.md, F3): the byte that makes `rx_len = RX_CAP` (R112, R213). -/

namespace Sys2Proof.Machine

theorem overflowTest_of_full {place : OverflowCheck} {s : State} (hplace : s.cfg.overflowCheck = place)
    (hfull : s.rxLen = s.cfg.rxCap) : overflowTest place s = { s with rxLen := 0 } :=
  if_pos ⟨hplace, hfull⟩

/-- The test before evaluation finds the buffer full and empties it; the memory keeps the appended byte (R53). -/
theorem received_of_filling (b : Byte) (now : Nat) {s : State} (hplace : s.cfg.overflowCheck = .beforeEval)
    (hfull : s.rxLen + 1 = s.cfg.rxCap) : received b now s = { append b (stampRx now s) with rxLen := 0 } :=
  overflowTest_of_full (s := append b (stampRx now s)) hplace hfull

/-- The loop and the second test find an empty buffer, so the stages of `FEED` end with the first test. -/
theorem assemble_of_received_empty {b : Byte} {now : Nat} {s : State} (hempty : (received b now s).rxLen = 0)
    (hcap : 0 < (received b now s).cfg.rxCap) : assemble b now s = received b now s := by
  have hstable : Stable (received b now s) := .inl (by omega)
  rw [assemble_eq, eval_of_stable now hstable, overflowTest_of_ne _ (by omega)]

/-- Settles O31: the first overflow test empties the buffer, and no later stage finds a byte to report. -/
theorem feedOverflow : Obligations.FeedOverflow := by
  intro b now s hpt hplace hfull
  have hreceived := received_of_filling b now hplace hfull
  have hassemble : assemble b now s = received b now s := by
    apply assemble_of_received_empty
    · rw [hreceived]
    · rw [hreceived, append_cfg, stampRx_cfg]
      omega
  rw [exec_feed_assembles b now s hpt (by omega), hassemble, hreceived]
  rfl

end Sys2Proof.Machine
end

section
/-! `RESET` (70_reset_and_hazards.md, R240) as one update of the whole state: each of its four writes is stated with the
fields it names, so that what none of them names is unchanged. -/

namespace Sys2Proof.Machine

theorem bulkReset_eq (s : State) : bulkReset s = { s with rxLen := 0 } := rfl

theorem setLinkUp_eq (v : Bool) (s : State) : setLinkUp v s = { s with linkUp := v } := rfl

theorem clearRecords_eq (s : State) : clearRecords s = { s with
    chRaw := none, ls := none, gps := none, bat := none, att := none,
    sens := ⟨none, none, none, none, none, none⟩ } := rfl

/-- The link drops by the plain write of its flag, not by the emitting operation of `POLL`: no `LinkDown` (R240). -/
theorem exec_reset (s : State) :
    exec .reset s = .next (clearRecords (setPassthrough false (setLinkUp false (bulkReset s)))) := rfl

/-- Settles O23: the four writes of `RESET` name disjoint fields, so together they are one update. -/
theorem resetResult : Obligations.ResetResult := by
  intro s
  rw [exec_reset, bulkReset_eq, setLinkUp_eq, setPassthrough_eq, clearRecords_eq]

end Sys2Proof.Machine
end

section
/-! The sensor codec both ways (R161, R167, R170). A head list is the only thing that is ever encoded: a slot array is a head
of equal fields, and the four records with a layout in the source are layouts without a slot array. So one round trip over
head lists serves all ten records. -/

namespace Sys2Proof.Machine

/-! One field (R82, R168). -/

/-- `PUT_BE` reads its value modulo `256^n` only. -/
theorem putBe_congr {v w : Int} {n : Nat} (h : v % 256 ^ n = w % 256 ^ n) : putBe v n = putBe w n := by
  rw [putBe, putBe, h]

theorem putBe_beI (s : List Byte) : putBe (beI s) s.length = s := by
  have hcast : ((256 ^ s.length : Nat) : Int) = 256 ^ s.length := Nat.cast_pow 256 _
  have hres : beI s % 256 ^ s.length = (beU s : Int) % 256 ^ s.length := by
    rw [beI_eq_bmod, ← hcast, Int.bmod_emod]
  rw [putBe_congr hres, putBe_beU]

theorem fits_beU (s : List Byte) : fits s.length false (beU s) = true := by
  have hlt : (beU s : Int) < 256 ^ s.length := by exact_mod_cast beU_lt s
  simp [fits, fitsU, hlt]

/-- A field of no byte has no signed range, so one byte is needed. -/
theorem fits_beI {s : List Byte} (h : 1 ≤ s.length) : fits s.length true (beI s) = true := by
  obtain ⟨k, hk⟩ : ∃ k, s.length = k + 1 := ⟨s.length - 1, by omega⟩
  have hcast : ((256 ^ s.length : Nat) : Int) = 256 ^ s.length := Nat.cast_pow 256 _
  have heven : 256 ^ s.length = 256 ^ k * 256 := by rw [hk, pow_succ]
  have hpos : 0 < 256 ^ s.length := by positivity
  have hlo := Int.le_bmod (x := (beU s : Int)) hpos
  have hhi := Int.bmod_lt (x := (beU s : Int)) hpos
  simp only [fits, fitsI, beI_eq_bmod, if_true, Bool.and_eq_true, decide_eq_true_iff]
  omega

/-- What stands in a payload is what its field encodes to. -/
theorem putField_field {p : List Byte} {o n : Nat} (signed : Bool) (hn : 1 ≤ n) (hlen : o + n ≤ p.length) :
    putField n signed (field p o n signed) = some (slice p o n) := by
  have hslice : (slice p o n).length = n := by rw [slice, List.length_take, List.length_drop]; omega
  rw [putField_eq_some]
  cases signed with
  | false =>
    have hfits := fits_beU (slice p o n)
    have hbytes := putBe_beU (slice p o n)
    rw [hslice] at hfits hbytes
    exact ⟨hfits, hbytes⟩
  | true =>
    have hfits := fits_beI (s := slice p o n) (by omega)
    have hbytes := putBe_beI (slice p o n)
    rw [hslice] at hfits hbytes
    exact ⟨hfits, hbytes⟩

/-- An encoded field is read back wherever it stands. -/
theorem field_of_putField {n : Nat} {signed : Bool} {v : Int} {b : List Byte} (pre post : List Byte)
    (h : putField n signed v = some b) : field (pre ++ (b ++ post)) pre.length n signed = v := by
  obtain ⟨hfits, rfl⟩ := (putField_eq_some ..).mp h
  have hslice : ((pre ++ (putBe v n ++ post)).drop pre.length).take n = putBe v n := by
    rw [List.drop_left, List.take_left' (putBe_length v n)]
  cases signed with
  | false =>
    simp only [fits, fitsU, Bool.false_eq_true, if_false, Bool.and_eq_true, decide_eq_true_iff] at hfits
    rw [field_eq_beU, hslice, beU_putBe_of_mem hfits.1 hfits.2]
  | true =>
    simp only [fits, fitsI, if_true, Bool.and_eq_true, decide_eq_true_iff] at hfits
    rw [field_eq_beI, hslice, beI_putBe_of_mem hfits.1 hfits.2]

/-! Head lists (R167). -/

theorem joinFields_pair (x y : Option (List Byte)) (p : List Byte) :
    joinFields [x, y] = some p ↔ ∃ a b, x = some a ∧ y = some b ∧ p = a ++ b := by
  cases x <;> cases y <;> simp [joinFields, eq_comm]

/-- Joining is the same in one go and pair by pair. -/
theorem joinFields_cons_eq_pair (x : Option (List Byte)) (xs : List (Option (List Byte))) :
    joinFields (x :: xs) = joinFields [x, joinFields xs] :=
  Option.ext fun p => by rw [joinFields_cons, joinFields_pair]

/-- As many values as fields: the payload of the fields one after another. -/
theorem putHead_eq_joinFields {fs : List Field} {vs : List Int} (h : fs.length = vs.length) :
    putHead fs vs = joinFields (List.zipWith (fun f v => putField f.width f.signed v) fs vs) := by
  induction fs generalizing vs with
  | nil =>
    obtain rfl := List.eq_nil_of_length_eq_zero h.symm
    rfl
  | cons f fs ih =>
    obtain ⟨v, vs, rfl⟩ := List.exists_cons_of_length_eq_add_one h.symm
    rw [putHead, ih (by simpa using h), List.zipWith_cons_cons, ← joinFields_cons_eq_pair]

/-- The values a head list encodes are exactly those in range, one for each field. -/
theorem putHead_isSome (fs : List Field) (vs : List Int) :
    (putHead fs vs).isSome =
      (decide (vs.length = fs.length) && (fs.zip vs).all (fun fv => fits fv.1.width fv.1.signed fv.2)) := by
  induction fs generalizing vs with
  | nil => cases vs <;> rfl
  | cons f fs ih =>
    cases vs with
    | nil => rfl
    | cons v vs =>
      have hpair : (putHead (f :: fs) (v :: vs)).isSome = (fits f.width f.signed v && (putHead fs vs).isSome) := by
        rw [putHead, putField]
        cases fits f.width f.signed v <;> cases putHead fs vs <;> rfl
      rw [hpair, ih, Bool.eq_iff_iff]
      simp only [List.length_cons, List.zip_cons_cons, List.all_cons, Bool.and_eq_true, decide_eq_true_eq]
      grind

/-- An encoded head list is read back wherever it stands. -/
theorem headFields_of_putHead {fs : List Field} {vs : List Int} {b : List Byte} (pre post : List Byte)
    (h : putHead fs vs = some b) :
    headFields fs pre.length (pre ++ (b ++ post)) = vs ∧ b.length = (fs.map Field.width).sum := by
  induction fs generalizing vs b pre with
  | nil =>
    cases vs with
    | nil => cases h; exact ⟨rfl, rfl⟩
    | cons v vs => cases h
  | cons f fs ih =>
    cases vs with
    | nil => cases h
    | cons v vs =>
      obtain ⟨b₁, b₂, h₁, h₂, rfl⟩ := (joinFields_pair ..).mp h
      have hwidth : b₁.length = f.width := by
        obtain ⟨-, rfl⟩ := (putField_eq_some ..).mp h₁
        exact putBe_length v f.width
      obtain ⟨hrest, hlen⟩ := ih (pre ++ b₁) h₂
      rw [List.append_assoc pre, List.length_append, hwidth, ← List.append_assoc b₁] at hrest
      constructor
      · rw [headFields, hrest, List.append_assoc, field_of_putField pre (b₂ ++ post) h₁]
      · rw [List.length_append, hwidth, hlen, List.map_cons, List.sum_cons]

/-- What stands in a payload is what its head fields encode to. -/
theorem putHead_headFields {fs : List Field} {o : Nat} {p : List Byte} (hfs : ∀ f ∈ fs, 1 ≤ f.width)
    (hlen : o + (fs.map Field.width).sum ≤ p.length) :
    putHead fs (headFields fs o p) = some (slice p o (fs.map Field.width).sum) := by
  induction fs generalizing o with
  | nil => rfl
  | cons f fs ih =>
    obtain ⟨hf, hrest⟩ := List.forall_mem_cons.mp hfs
    rw [List.map_cons, List.sum_cons] at hlen ⊢
    have hsplit : slice p o (f.width + (fs.map Field.width).sum) =
        slice p o f.width ++ slice p (o + f.width) (fs.map Field.width).sum := by
      rw [slice, slice, slice, List.take_add, List.drop_drop]
    rw [headFields, putHead, putField_field f.signed hf (by omega), ih hrest (by omega), hsplit]
    exact (joinFields_pair ..).mpr ⟨_, _, rfl, rfl, rfl⟩

/-! The slot array (R161, R167) as a head list of equal fields. -/

/-- The field that each element of a slot array is. -/
def slotField (a : SlotArray) : Field := ⟨a.name, a.width, a.signed⟩

theorem sum_width_replicate (a : SlotArray) (k : Nat) :
    ((List.replicate k (slotField a)).map Field.width).sum = k * a.width := by
  rw [List.map_replicate, List.sum_replicate, smul_eq_mul]
  rfl

theorem slotFields_eq_headFields (a : SlotArray) (o : Nat) (p : List Byte) :
    slotFields (some a) o p =
      headFields (List.replicate (min a.maxCount ((p.length - o) / a.width)) (slotField a)) o p := by
  have hlen := length_slotFields a o p
  refine List.ext_getElem? fun j => ?_
  by_cases hj : j < (slotFields (some a) o p).length
  · have hfield := List.getElem?_replicate_of_lt (a := slotField a) (hlen ▸ hj)
    rw [getElem?_slotFields hj, getElem?_headFields o p hfield, List.take_replicate, sum_width_replicate,
      Nat.min_eq_left (by omega)]
    rfl
  · rw [List.getElem?_eq_none (by omega), List.getElem?_eq_none (by rw [length_headFields, List.length_replicate]; omega)]

theorem putSlots_eq_putHead {a : SlotArray} {vs : List Int} (h : vs.length ≤ a.maxCount) :
    putSlots (some a) vs = putHead (List.replicate vs.length (slotField a)) vs := by
  rw [putHead_eq_joinFields List.length_replicate, putSlots, if_pos h]
  congr 1
  induction vs with
  | nil => rfl
  | cons v vs ih =>
    rw [List.map_cons, ih (by simp at h; omega), List.length_cons, List.replicate_succ, List.zipWith_cons_cons]
    rfl

theorem putSlots_none_isSome (vs : List Int) : (putSlots none vs).isSome = vs.isEmpty := by
  cases vs <;> rfl

/-- The values a slot array encodes are those in range, at most `max_count` of them. -/
theorem putSlots_some_isSome (a : SlotArray) (vs : List Int) :
    (putSlots (some a) vs).isSome = (decide (vs.length ≤ a.maxCount) && vs.all (fits a.width a.signed)) := by
  by_cases h : vs.length ≤ a.maxCount
  · have hzip : (List.replicate vs.length (slotField a)).zip vs = vs.map (Prod.mk (slotField a)) := by
      clear h
      induction vs with
      | nil => rfl
      | cons v vs ih => rw [List.length_cons, List.replicate_succ, List.zip_cons_cons, ih, List.map_cons]
    rw [putSlots_eq_putHead h, putHead_isSome, List.length_replicate, hzip, List.all_map]
    simp [h, slotField, Function.comp_def]
  · simp [putSlots, h]

/-! Whole layouts (R170). -/

/-- A record has a payload exactly when the layout can hold it (R43, R81, R168). -/
theorem writeLayout_isSome (d : Layout) (r : SensorRec) : (writeLayout d r).isSome = Layout.holds d r := by
  have hpair : (writeLayout d r).isSome = ((putHead d.head r.head).isSome && (putSlots d.slots r.slots).isSome) := by
    rw [writeLayout]
    cases putHead d.head r.head <;> cases putSlots d.slots r.slots <;> rfl
  rw [hpair, putHead_isSome]
  unfold Layout.holds
  cases d.slots with
  | none => exact congrArg (_ && ·) (putSlots_none_isSome r.slots)
  | some a => exact congrArg (_ && ·) (putSlots_some_isSome a r.slots)

/-- The form of R81: every width is positive. -/
theorem one_le_width_of_wf {d : Layout} (h : d.wf = true) :
    (∀ f ∈ d.head, 1 ≤ f.width) ∧ ∀ a, d.slots = some a → 1 ≤ a.width := by
  rw [Layout.wf, Bool.and_eq_true, List.all_eq_true] at h
  obtain ⟨hhead, hslots⟩ := h
  have hwidth {n : Nat} (hn : widthOk n = true) : 1 ≤ n := by
    rw [widthOk, Bool.and_eq_true, decide_eq_true_iff] at hn
    exact hn.1
  refine ⟨fun f hf => hwidth (hhead f hf), fun a ha => ?_⟩
  rw [ha] at hslots
  exact hwidth hslots

/-- Decode after encode: the payload is long enough and gives the record back. -/
theorem readLayout_writeLayout {d : Layout} {r : SensorRec} {p : List Byte} (hwf : d.wf = true)
    (h : writeLayout d r = some p) : d.size ≤ p.length ∧ readLayout d p = r := by
  obtain ⟨b, q, hb, hq, rfl⟩ := (joinFields_pair ..).mp h
  obtain ⟨hhead, hsize⟩ := headFields_of_putHead [] q hb
  change headFields d.head 0 (b ++ q) = r.head at hhead
  change b.length = d.size at hsize
  have hslots : slotFields d.slots d.size (b ++ q) = r.slots := by
    cases hd : d.slots with
    | none =>
      rw [hd] at hq
      cases hr : r.slots with
      | nil => rfl
      | cons v vs => rw [hr] at hq; cases hq
    | some a =>
      rw [hd] at hq
      have hcount : r.slots.length ≤ a.maxCount := by
        by_contra hmany
        rw [putSlots, if_neg hmany] at hq
        cases hq
      rw [putSlots_eq_putHead hcount] at hq
      obtain ⟨hread, hlen⟩ := headFields_of_putHead b [] hq
      rw [List.append_nil, hsize] at hread
      rw [sum_width_replicate] at hlen
      have hwidth := (one_le_width_of_wf hwf).2 a hd
      have hfit : (b ++ q).length - d.size = r.slots.length * a.width := by
        rw [List.length_append, hsize, hlen, Nat.add_sub_cancel_left]
      rw [slotFields_eq_headFields, hfit, Nat.mul_div_cancel _ hwidth, Nat.min_eq_right hcount, hread]
  refine ⟨by rw [List.length_append]; omega, ?_⟩
  rw [readLayout, hhead, hslots]

/-- Encode after decode: the bytes read are written again; of a payload of exactly the layout's size, all. -/
theorem writeLayout_readLayout {d : Layout} {p : List Byte} (hwf : d.wf = true) (hlen : d.size ≤ p.length) :
    ∃ q, writeLayout d (readLayout d p) = some (p.take d.size ++ q) ∧ (p.length = d.size → q = []) := by
  obtain ⟨hheadWidth, hslotWidth⟩ := one_le_width_of_wf hwf
  have hhead : putHead d.head (headFields d.head 0 p) = some (p.take d.size) :=
    putHead_headFields hheadWidth (by rw [Nat.zero_add]; exact hlen)
  have hslots : ∃ q, putSlots d.slots (slotFields d.slots d.size p) = some q ∧ (p.length = d.size → q = []) := by
    cases hd : d.slots with
    | none => exact ⟨[], rfl, fun _ => rfl⟩
    | some a =>
      have hcount := length_slotFields a d.size p
      have hwidth := hslotWidth a hd
      have hroom : (p.length - d.size) / a.width * a.width ≤ p.length - d.size := Nat.div_mul_le_self _ _
      have hle : (slotFields (some a) d.size p).length * a.width ≤ p.length - d.size :=
        (Nat.mul_le_mul_right _ (by omega)).trans hroom
      rw [putSlots_eq_putHead (by omega), hcount, slotFields_eq_headFields, putHead_headFields]
      · refine ⟨_, rfl, fun hexact => ?_⟩
        rw [sum_width_replicate, ← hcount, slice, List.drop_eq_nil_of_le (by omega), List.take_nil]
      · exact fun f hf => by rw [List.eq_of_mem_replicate hf]; exact hwidth
      · rw [sum_width_replicate, ← hcount]
        omega
  obtain ⟨q, hq, hempty⟩ := hslots
  exact ⟨q, (joinFields_pair ..).mpr ⟨_, _, hhead, hq, rfl⟩, hempty⟩

/-- Every value read is in its field's range (log entry 21). -/
theorem holds_readLayout {d : Layout} {p : List Byte} (hwf : d.wf = true) (hlen : d.size ≤ p.length) :
    Layout.holds d (readLayout d p) = true := by
  obtain ⟨q, hq, -⟩ := writeLayout_readLayout hwf hlen
  rw [← writeLayout_isSome, hq, Option.isSome_some]

/-- R170 for a layout, both ways. -/
theorem exists_payload_of_holds {d : Layout} {r : SensorRec} (hwf : d.wf = true) (h : Layout.holds d r = true) :
    ∃ p, writeLayout d r = some p ∧ d.size ≤ p.length ∧ readLayout d p = r := by
  rw [← writeLayout_isSome, Option.isSome_iff_exists] at h
  obtain ⟨p, hp⟩ := h
  exact ⟨p, hp, readLayout_writeLayout hwf hp⟩

theorem writeLayout_readLayout_of_size {d : Layout} {p : List Byte} (hwf : d.wf = true) (hlen : p.length = d.size) :
    writeLayout d (readLayout d p) = some p := by
  obtain ⟨q, hq, hempty⟩ := writeLayout_readLayout hwf hlen.ge
  rw [hq, hempty hlen, List.append_nil, List.take_of_length_le hlen.le]

/-- Settles O22: the layout's round trip, through `ENC.PARAM` and `DEC.PARAM`. -/
theorem paramRecordsRoundTrip : Obligations.ParamRecordsRoundTrip := by
  intro x d s hd hwf
  have henc (r : SensorRec) : encParam s.cfg x r = writeLayout d r := by rw [encParam, hd]
  refine ⟨fun r hr => ?encodeDecode, fun P hlen => ?decodeEncode⟩
  case encodeDecode =>
    obtain ⟨P, hP, hsize, hread⟩ := exists_payload_of_holds hwf hr
    refine ⟨P, (henc r).trans hP, ?_⟩
    rw [exec_decParam, decodeParam_of_complete hd hsize, hread]
    rfl
  case decodeEncode =>
    refine ⟨_, readLayout d P, exec_decParam x P s, ?_, (henc _).trans (writeLayout_readLayout_of_size hwf hlen)⟩
    rw [decodeParam_of_complete hd hlen.ge, emit_sens]
    exact PerSensor_get_set_same ..

/-! The records with a layout in the source (R77 to R80), each as a layout without a slot array. -/

def lsLayout : Layout :=
  ⟨[⟨"up_rssi1", 1, false⟩, ⟨"up_rssi2", 1, false⟩, ⟨"up_lq", 1, false⟩, ⟨"up_snr", 1, true⟩, ⟨"antenna", 1, false⟩,
    ⟨"rf_mode", 1, false⟩, ⟨"tx_power", 1, false⟩, ⟨"dn_rssi", 1, false⟩, ⟨"dn_lq", 1, false⟩, ⟨"dn_snr", 1, true⟩], none⟩

def gpsLayout : Layout :=
  ⟨[⟨"lat", 4, true⟩, ⟨"lon", 4, true⟩, ⟨"groundspeed", 2, false⟩, ⟨"heading", 2, false⟩, ⟨"altitude", 2, false⟩,
    ⟨"satellites", 1, false⟩], none⟩

def batLayout : Layout :=
  ⟨[⟨"voltage", 2, false⟩, ⟨"current", 2, false⟩, ⟨"capacity", 3, false⟩, ⟨"remaining", 1, false⟩], none⟩

def attLayout : Layout := ⟨[⟨"pitch", 2, true⟩, ⟨"roll", 2, true⟩, ⟨"yaw", 2, true⟩], none⟩

/-- The values in wire order. -/
def LinkStats.values (r : LinkStats) : SensorRec :=
  ⟨[r.upRssi1, r.upRssi2, r.upLq, r.upSnr, r.antenna, r.rfMode, r.txPower, r.dnRssi, r.dnLq, r.dnSnr], []⟩

def Gps.values (r : Gps) : SensorRec := ⟨[r.lat, r.lon, r.groundspeed, r.heading, r.altitude, r.satellites], []⟩

def Battery.values (r : Battery) : SensorRec := ⟨[r.voltage, r.current, r.capacity, r.remaining], []⟩

def Attitude.values (r : Attitude) : SensorRec := ⟨[r.pitch, r.roll, r.yaw], []⟩

/-- Without a slot array the payload is that of the head. -/
theorem writeLayout_of_no_slots {d : Layout} {r : SensorRec} (hd : d.slots = none) (hr : r.slots = [])
    (hlen : d.head.length = r.head.length) :
    writeLayout d r = joinFields (List.zipWith (fun f v => putField f.width f.signed v) d.head r.head) := by
  rw [← putHead_eq_joinFields hlen, writeLayout, hd, hr, putSlots]
  cases putHead d.head r.head <;> simp [joinFields]

theorem encLs_eq_writeLayout (r : LinkStats) : encLs r = writeLayout lsLayout r.values :=
  (writeLayout_of_no_slots (d := lsLayout) (r := r.values) rfl rfl rfl).symm

theorem encGps_eq_writeLayout (r : Gps) : encGps r = writeLayout gpsLayout r.values :=
  (writeLayout_of_no_slots (d := gpsLayout) (r := r.values) rfl rfl rfl).symm

theorem encBat_eq_writeLayout (r : Battery) : encBat r = writeLayout batLayout r.values :=
  (writeLayout_of_no_slots (d := batLayout) (r := r.values) rfl rfl rfl).symm

theorem encAtt_eq_writeLayout (r : Attitude) : encAtt r = writeLayout attLayout r.values :=
  (writeLayout_of_no_slots (d := attLayout) (r := r.values) rfl rfl rfl).symm

theorem values_readLs (p : List Byte) : (readLs p).values = readLayout lsLayout p := rfl
theorem values_readGps (p : List Byte) : (readGps p).values = readLayout gpsLayout p := rfl
theorem values_readBat (p : List Byte) : (readBat p).values = readLayout batLayout p := rfl
theorem values_readAtt (p : List Byte) : (readAtt p).values = readLayout attLayout p := rfl

theorem holds_lsValues (r : LinkStats) : Layout.holds lsLayout r.values = r.inRange := by
  simp [Layout.holds, lsLayout, LinkStats.values, LinkStats.inRange, fits, Bool.and_assoc]

theorem holds_gpsValues (r : Gps) : Layout.holds gpsLayout r.values = r.inRange := by
  simp [Layout.holds, gpsLayout, Gps.values, Gps.inRange, fits, Bool.and_assoc]

theorem holds_batValues (r : Battery) : Layout.holds batLayout r.values = r.inRange := by
  simp [Layout.holds, batLayout, Battery.values, Battery.inRange, fits, Bool.and_assoc]

theorem holds_attValues (r : Attitude) : Layout.holds attLayout r.values = r.inRange := by
  simp [Layout.holds, attLayout, Attitude.values, Attitude.inRange, fits, Bool.and_assoc]

theorem LinkStats.values_injective : Function.Injective LinkStats.values := by
  intro r q h
  simp only [LinkStats.values, SensorRec.mk.injEq, List.cons.injEq, and_true] at h
  obtain ⟨h1, h2, h3, h4, h5, h6, h7, h8, h9, h10⟩ := h
  exact (LinkStats.mk.injEq ..).mpr ⟨h1, h2, h3, h4, h5, h6, h7, h8, h9, h10⟩

theorem Gps.values_injective : Function.Injective Gps.values := by
  intro r q h
  simp only [Gps.values, SensorRec.mk.injEq, List.cons.injEq, and_true] at h
  exact (Gps.mk.injEq ..).mpr h

theorem Battery.values_injective : Function.Injective Battery.values := by
  intro r q h
  simp only [Battery.values, SensorRec.mk.injEq, List.cons.injEq, and_true] at h
  exact (Battery.mk.injEq ..).mpr h

theorem Attitude.values_injective : Function.Injective Attitude.values := by
  intro r q h
  simp only [Attitude.values, SensorRec.mk.injEq, List.cons.injEq, and_true] at h
  exact (Attitude.mk.injEq ..).mpr h

/-- R170 for one of the four records, from its layout `d`, its values, its reader and its encoder. -/
theorem exists_payload_of_values {ρ : Type} {d : Layout} {values : ρ → SensorRec} {read : List Byte → ρ}
    {enc : ρ → Option (List Byte)} (hwf : d.wf = true) (hinj : Function.Injective values)
    (hread : ∀ p, values (read p) = readLayout d p) (henc : ∀ r, enc r = writeLayout d (values r)) :
    (∀ r, Layout.holds d (values r) = true → ∃ p, enc r = some p ∧ d.size ≤ p.length ∧ read p = r) ∧
    ∀ p, p.length = d.size → enc (read p) = some p := by
  refine ⟨fun r hr => ?_, fun p hlen => by rw [henc, hread, writeLayout_readLayout_of_size hwf hlen]⟩
  obtain ⟨p, hp, hsize, hback⟩ := exists_payload_of_holds hwf hr
  exact ⟨p, (henc r).trans hp, hsize, hinj ((hread p).trans hback)⟩

/-- Settles O21: the four layouts, each through its own encoder and decoder. -/
theorem fixedRecordsRoundTrip : Obligations.FixedRecordsRoundTrip := by
  obtain ⟨lsPut, lsGet⟩ := exists_payload_of_values (d := lsLayout) (by decide) LinkStats.values_injective values_readLs
    encLs_eq_writeLayout
  obtain ⟨gpsPut, gpsGet⟩ := exists_payload_of_values (d := gpsLayout) (by decide) Gps.values_injective values_readGps
    encGps_eq_writeLayout
  obtain ⟨batPut, batGet⟩ := exists_payload_of_values (d := batLayout) (by decide) Battery.values_injective values_readBat
    encBat_eq_writeLayout
  obtain ⟨attPut, attGet⟩ := exists_payload_of_values (d := attLayout) (by decide) Attitude.values_injective values_readAtt
    encAtt_eq_writeLayout
  refine ⟨fun r s hr => ?ls, fun r s hr => ?gps, fun r s hr => ?bat, fun r s hr => ?att,
    fun P s hlen => ⟨_, readLs P, exec_decLs P s, ?lsStored, lsGet P hlen⟩,
    fun P s hlen => ⟨_, readGps P, exec_decGps P s, ?gpsStored, gpsGet P hlen⟩,
    fun P s hlen => ⟨_, readBat P, exec_decBat P s, ?batStored, batGet P hlen⟩,
    fun P s hlen => ⟨_, readAtt P, exec_decAtt P s, ?attStored, attGet P hlen⟩⟩
  case ls =>
    obtain ⟨P, hP, hsize, hread⟩ := lsPut r ((holds_lsValues r).trans hr)
    exact ⟨P, hP, by rw [exec_decLs, decodeLs_of_complete s hsize, hread]; rfl⟩
  case gps =>
    obtain ⟨P, hP, hsize, hread⟩ := gpsPut r ((holds_gpsValues r).trans hr)
    exact ⟨P, hP, by rw [exec_decGps, decodeGps_of_complete s hsize, hread]; rfl⟩
  case bat =>
    obtain ⟨P, hP, hsize, hread⟩ := batPut r ((holds_batValues r).trans hr)
    exact ⟨P, hP, by rw [exec_decBat, decodeBat_of_complete s hsize, hread]; rfl⟩
  case att =>
    obtain ⟨P, hP, hsize, hread⟩ := attPut r ((holds_attValues r).trans hr)
    exact ⟨P, hP, by rw [exec_decAtt, decodeAtt_of_complete s hsize, hread]; rfl⟩
  case lsStored => rw [decodeLs_of_complete s hlen.ge]; rfl
  case gpsStored => rw [decodeGps_of_complete s hlen.ge]; rfl
  case batStored => rw [decodeBat_of_complete s hlen.ge]; rfl
  case attStored => rw [decodeAtt_of_complete s hlen.ge]; rfl

end Sys2Proof.Machine
end

section
/-! The encoder and the decoder both ways (R70, R74, R88), and what a step makes of the packet at the host port (R20, R230). -/

namespace Sys2Proof.Machine

/-! Host packets (R88; log entry 2). -/

/-- A time of `TIME_W` bits fits its operand bytes. -/
theorem lt_pow_timeBytes {c : Config} {now : Nat} (h : now < 2 ^ c.timeW) : now < 256 ^ c.timeBytes := by
  refine h.trans_le ?_
  rw [show 256 = 2 ^ 8 from rfl, ← pow_mul]
  exact Nat.pow_le_pow_right (by decide) (by rw [Config.timeBytes]; omega)

theorem readTime_putBe {c : Config} {now : Nat} (h : now < 2 ^ c.timeW) :
    readTime c (putBe now c.timeBytes) = some now := by
  have hvalue : beU (putBe now c.timeBytes) = now := by
    exact_mod_cast beU_putBe_of_mem (v := now) (by omega) (by exact_mod_cast lt_pow_timeBytes h)
  rw [readTime, hvalue, if_pos ⟨putBe_length .., h⟩]

theorem putBe_of_readTime {c : Config} {bytes : List Byte} {now : Nat} (h : readTime c bytes = some now) :
    putBe now c.timeBytes = bytes ∧ c.timeOk now = true := by
  rw [readTime] at h
  split at h
  next hread =>
    obtain ⟨hlen, hlt⟩ := hread
    obtain rfl := Option.some.inj h
    exact ⟨hlen ▸ putBe_beU bytes, decide_eq_true hlt⟩
  next => cases h

theorem decodeCommand_feed {c : Config} (b : Byte) {t : List Byte} {now : Nat} (h : readTime c t = some now) :
    decodeCommand c (0x1#8 :: b :: t) = .ok (.feed b now) := by
  simp [decodeCommand, h]

theorem decodeCommand_poll {c : Config} {t : List Byte} {now : Nat} (h : readTime c t = some now) :
    decodeCommand c (0x2#8 :: t) = .ok (.poll now) := by
  simp [decodeCommand, h]

theorem decodeCommand_unknown (c : Config) {code : Byte} (ops : List Byte) (h : 5 ≤ code.toNat) :
    decodeCommand c (code :: ops) = .error (.unknownCommand code.toNat) := by
  have hne {k : Byte} (hk : k.toNat < 5) : code ≠ k := by
    rintro rfl
    omega
  unfold decodeCommand
  dsimp only
  rw [if_neg (hne (by decide)), if_neg (hne (by decide)), if_neg (hne (by decide)), if_neg (hne (by decide)),
    if_neg (hne (by decide))]

/-- Settles O55: the packets of each code, with as many operand bytes as it takes. -/
theorem encodeDecodeCommand : Obligations.EncodeDecodeCommand := by
  intro c bytes i h
  cases bytes with
  | nil => cases h
  | cons code ops =>
    unfold decodeCommand at h
    dsimp only at h
    split at h
    next hreset =>
      subst hreset
      cases ops <;> cases h
      exact ⟨rfl, rfl, rfl⟩
    split at h
    next hfeed =>
      subst hfeed
      cases ops with
      | nil => cases h
      | cons b t =>
        cases htime : readTime c t with
        | none => simp [htime] at h
        | some now =>
          simp only [htime] at h
          cases h
          obtain ⟨hbytes, hok⟩ := putBe_of_readTime htime
          exact ⟨by rw [encode, hbytes]; rfl, hok, rfl⟩
    split at h
    next hpoll =>
      subst hpoll
      cases htime : readTime c ops with
      | none => simp [htime] at h
      | some now =>
        simp only [htime] at h
        cases h
        obtain ⟨hbytes, hok⟩ := putBe_of_readTime htime
        exact ⟨by rw [encode, hbytes]; rfl, hok, rfl⟩
    split at h
    next hsend =>
      subst hsend
      rcases ops with _ | ⟨addr, _ | ⟨type, payload⟩⟩ <;> cases h
      exact ⟨rfl, rfl, rfl⟩
    split at h
    next hptSet =>
      subst hptSet
      rcases ops with _ | ⟨v, _ | ⟨w, rest⟩⟩
      · cases h
      · simp only at h
        split at h
        next hfalse => subst hfalse; cases h; exact ⟨rfl, rfl, rfl⟩
        split at h
        next htrue => subst htrue; cases h; exact ⟨rfl, rfl, rfl⟩
        next => cases h
      · cases h
    next => cases h

/-! Wire frames (R70, R74). -/

/-- R19 bounds the frame size on both sides. -/
theorem maxFrameSize_of_wf {c : Config} (h : c.wf = true) : 3 ≤ c.maxFrameSize ∧ c.maxFrameSize ≤ 253 := by
  simp only [Config.wf, Bool.and_eq_true, decide_eq_true_eq] at h
  simp only [h, and_self]

/-- A payload that R72 admits comes back as what its type selects. -/
theorem decode_encodeFrame {c : Config} (now : Nat) (type : Byte) {p : List Byte} (hwf : c.wf = true)
    (hp : c.payloadOk p = true) : decode c (encodeFrame c now type p) = .ok (frameInstr c now type p) := by
  obtain ⟨hlo, hhi⟩ := maxFrameSize_of_wf hwf
  rw [Config.payloadOk, Bool.and_eq_true, decide_eq_true_iff, decide_eq_true_iff] at hp
  exact decodeFrame_buildFrame now c.ownAddr type hhi hp.1 (by omega)

/-- The row of a supported sensor is active (R85). -/
theorem frameInstr_of_supports {c : Config} (now : Nat) (p : List Byte) (hwf : c.wf = true) {x : SensorId}
    (h : c.supports x = true) : frameInstr c now (c.typeSensor.get x) p = .decParam x p := by
  have hactive : c.sensorLayout.get x ≠ none := Option.isSome_iff_ne_none.mp h
  rw [frameInstr_typeSensor now p (typeCodes_nodup_of_wf hwf), if_neg hactive]

/-- A sensor's own code is found at that sensor: the codes are distinct (R19). -/
theorem sensorOf_typeSensor {c : Config} (h : c.typeCodes.Nodup) (x : SensorId) :
    c.sensorOf (c.typeSensor.get x) = some x := by
  simp only [Config.typeCodes, List.nodup_cons, List.mem_cons, List.not_mem_nil, or_false, not_or] at h
  cases x <;> simp [Config.sensorOf, PerSensor.get, h, eq_comm]

/-- A type byte without an active row has no code at all, or that of a sensor without a layout. -/
theorem frameInstr_of_unknownType {c : Config} (now : Nat) {t : Byte} (p : List Byte) (hwf : c.wf = true)
    (h : c.knownType t = false) : frameInstr c now t p = .decUnk t p := by
  have hnodup := typeCodes_nodup_of_wf hwf
  by_cases hmem : t ∈ c.typeCodes
  · have hsensor : ∃ x, t = c.typeSensor.get x := by
      simp only [Config.typeCodes, List.mem_cons, List.not_mem_nil, or_false] at hmem
      simp only [Config.knownType, Bool.or_eq_false_iff, decide_eq_false_iff_not] at h
      obtain ⟨⟨⟨⟨⟨hch, hls⟩, hgps⟩, hbat⟩, hatt⟩, -⟩ := h
      obtain h | h | h | h | h | h | h | h | h | h | h := hmem
      · exact absurd h hch
      · exact absurd h hls
      · exact absurd h hgps
      · exact absurd h hbat
      · exact absurd h hatt
      · exact ⟨.vario, h⟩
      · exact ⟨.baro, h⟩
      · exact ⟨.airspeed, h⟩
      · exact ⟨.rpm, h⟩
      · exact ⟨.temp, h⟩
      · exact ⟨.cells, h⟩
    obtain ⟨x, rfl⟩ := hsensor
    have hinactive : c.sensorLayout.get x = none := by
      rw [Config.knownType, sensorOf_typeSensor hnodup, Bool.or_eq_false_iff] at h
      exact Option.not_isSome_iff_eq_none.mp (Bool.eq_false_iff.mp h.2)
    rw [frameInstr_typeSensor now p hnodup, if_pos hinactive]
  · exact frameInstr_of_notMem_typeCodes now p hmem

/-- Settles O54: the host packets by their operand bytes, the frame operations by the row their type code selects. -/
theorem decodeEncode : Obligations.DecodeEncode := by
  intro c i hwf hi
  have hframe {p : List Byte} (now : Nat) (t : Byte) (hp : c.payloadOk p = true) :=
    decode_encodeFrame now t hwf hp
  have hparam {x : SensorId} {p : List Byte} (h : (c.payloadOk p && c.supports x) = true) :
      decode c (encodeFrame c 0 (c.typeSensor.get x) p) = .ok (.decParam x p) := by
    rw [Bool.and_eq_true] at h
    rw [hframe 0 _ h.1, frameInstr_of_supports 0 p hwf h.2]
  cases i with
  | reset => rfl
  | feed b now =>
    exact decodeCommand_feed b (readTime_putBe (of_decide_eq_true hi))
  | poll now =>
    exact decodeCommand_poll (readTime_putBe (of_decide_eq_true hi))
  | send addr type payload => rfl
  | ptSet v => cases v <;> rfl
  | decCh p now =>
    rw [Instr.wf, Bool.and_eq_true] at hi
    rw [encode, hframe now _ hi.1, (typeCodeSelects c now p hwf).1]
  | decLs p =>
    obtain ⟨-, hsel, -⟩ := typeCodeSelects c 0 p hwf
    rw [encode, hframe 0 _ hi, hsel]
  | decGps p =>
    obtain ⟨-, -, hsel, -⟩ := typeCodeSelects c 0 p hwf
    rw [encode, hframe 0 _ hi, hsel]
  | decBat p =>
    obtain ⟨-, -, -, hsel, -⟩ := typeCodeSelects c 0 p hwf
    rw [encode, hframe 0 _ hi, hsel]
  | decAtt p =>
    obtain ⟨-, -, -, -, hsel, -⟩ := typeCodeSelects c 0 p hwf
    rw [encode, hframe 0 _ hi, hsel]
  | decParamVario p => exact hparam (x := .vario) hi
  | decParamBaro p => exact hparam (x := .baro) hi
  | decParamAirspeed p => exact hparam (x := .airspeed) hi
  | decParamRpm p => exact hparam (x := .rpm) hi
  | decParamTemp p => exact hparam (x := .temp) hi
  | decParamCells p => exact hparam (x := .cells) hi
  | decUnk t p =>
    rw [Instr.wf, Bool.and_eq_true, Bool.not_eq_true'] at hi
    rw [encode, hframe 0 t hi.1, frameInstr_of_unknownType 0 p hwf hi.2]

/-- Settles O57: the packets by evaluation; of each frame the length, the CRC and the selected row. -/
theorem specWordsDecode : Obligations.SpecWordsDecode := by
  refine ⟨rfl, rfl, rfl, rfl, rfl, ?attitude, ?unknown⟩
  case attitude =>
    exact (decodeFrame_eq_ok_iff _ 0 0xC8#8 0x08#8 0x1E#8 0x03#8 [0x01#8, 0x2C#8, 0xFF#8, 0x38#8, 0x80#8, 0x00#8] _).mpr
      ⟨rfl, by decide, by decide, by decide +kernel, by decide⟩
  case unknown =>
    exact (decodeFrame_eq_ok_iff _ 0 0xC8#8 0x03#8 0x7F#8 0x06#8 [0x01#8] _).mpr
      ⟨rfl, by decide, by decide, by decide +kernel, by decide⟩

/-! The step (R20). -/

theorem nextOp_of_host {s : State} {packet : List Byte} {rest : List (List Byte)} (h : s.host = packet :: rest) :
    nextOp s = some (decodeCommand s.cfg packet) := by
  rw [nextOp, h]

theorem step_of_nextOp_none {s : State} (hwf : s.cfg.wf = true) (h : nextOp s = none) : step s = .next s := by
  rw [step, if_neg (Bool.not_eq_false _ ▸ hwf), h]

theorem step_of_nextOp_error {s : State} {e : DecodeError} (hwf : s.cfg.wf = true) (h : nextOp s = some (.error e)) :
    step s = .refused (refusalOf e) := by
  rw [step, if_neg (Bool.not_eq_false _ ▸ hwf), h]

theorem step_of_nextOp_ok {s : State} {i : Instr} (hwf : s.cfg.wf = true) (h : nextOp s = some (.ok i)) :
    step s = exec i (issue s) := by
  rw [step, if_neg (Bool.not_eq_false _ ▸ hwf), h]

/-- Settles O58: the packet at the head of the host port is the one issued. -/
theorem stepRunsDecodedOperation : Obligations.StepRunsDecodedOperation := by
  intro s packet rest i hwf hhost hdecode
  change decodeCommand s.cfg packet = .ok i at hdecode
  rw [step_of_nextOp_ok hwf (by rw [nextOp_of_host hhost, hdecode]), issue, hhost]
  rfl

/-- Settles O59: nothing at the host port, an unknown code there, or no admitted configuration. -/
theorem stepIdlesAndRefuses : Obligations.StepIdlesAndRefuses := by
  refine ⟨fun s hwf hhost => step_of_nextOp_none hwf ?idle, fun s code ops rest hwf hhost hcode => ?unknown,
    fun s hbad => if_pos hbad⟩
  case idle => rw [nextOp, hhost]
  case unknown =>
    exact step_of_nextOp_error hwf (by rw [nextOp_of_host hhost, decodeCommand_unknown s.cfg ops hcode])

end Sys2Proof.Machine
end

section
/-! What the receive operations can do, said once: a validated frame stores and reports one record or is dropped (R120, R86);
`FEED` and an idle flush are made of buffer writes, reported stray bytes and such frames (R110, R121). A property of the
decoded registers that survives these three survives the operation. -/

namespace Sys2Proof.Machine

/-! A validated frame (R120). -/

/-- What a frame dispatched at `now` can do to a state. A channel frame also beats the link (R181). -/
inductive FrameEffect (now : Nat) (s : State) : State → Prop
  | dropped : FrameEffect now s s
  | channels (raw : ChannelSet) : FrameEffect now s (emit (.channels raw (usOf raw)) (linkBeat now (setChRaw raw s)))
  | linkStats (r : LinkStats) (h : r.inRange = true) : FrameEffect now s (emit (.linkStats r) (setLs r s))
  | gps (r : Gps) (h : r.inRange = true) : FrameEffect now s (emit (.gps r) (setGps r s))
  | battery (r : Battery) (h : r.inRange = true) : FrameEffect now s (emit (.battery r) (setBat r s))
  | attitude (r : Attitude) (h : r.inRange = true) : FrameEffect now s (emit (.attitude r) (setAtt r s))
  | sensor (x : SensorId) (d : Layout) (r : SensorRec) (hd : s.cfg.sensorLayout.get x = some d)
      (h : d.wf = true → Layout.holds d r = true) : FrameEffect now s (emit (.sensor x r) (setSens x r s))

section
variable (now : Nat) (p : List Byte) (s : State)

theorem decodeCh_effect : FrameEffect now s (decodeCh p now s) := by
  rcases Nat.lt_or_ge p.length chPayload with hshort | hlen
  · rw [decodeCh_of_short now s hshort]
    exact .dropped
  · rw [decodeCh_of_complete now s hlen]
    exact .channels _

theorem decodeLs_effect : FrameEffect now s (decodeLs p s) := by
  rcases Nat.lt_or_ge p.length 10 with hshort | hlen
  · rw [decodeLs_of_short s hshort]
    exact .dropped
  · rw [decodeLs_of_complete s hlen]
    exact .linkStats _ (by rw [← holds_lsValues, values_readLs]; exact holds_readLayout (by decide) hlen)

theorem decodeGps_effect : FrameEffect now s (decodeGps p s) := by
  rcases Nat.lt_or_ge p.length 15 with hshort | hlen
  · rw [decodeGps_of_short s hshort]
    exact .dropped
  · rw [decodeGps_of_complete s hlen]
    exact .gps _ (by rw [← holds_gpsValues, values_readGps]; exact holds_readLayout (by decide) hlen)

theorem decodeBat_effect : FrameEffect now s (decodeBat p s) := by
  rcases Nat.lt_or_ge p.length 8 with hshort | hlen
  · rw [decodeBat_of_short s hshort]
    exact .dropped
  · rw [decodeBat_of_complete s hlen]
    exact .battery _ (by rw [← holds_batValues, values_readBat]; exact holds_readLayout (by decide) hlen)

theorem decodeAtt_effect : FrameEffect now s (decodeAtt p s) := by
  rcases Nat.lt_or_ge p.length 6 with hshort | hlen
  · rw [decodeAtt_of_short s hshort]
    exact .dropped
  · rw [decodeAtt_of_complete s hlen]
    exact .attitude _ (by rw [← holds_attValues, values_readAtt]; exact holds_readLayout (by decide) hlen)

theorem decodeParam_effect (x : SensorId) : FrameEffect now s (decodeParam x p s) := by
  cases hd : s.cfg.sensorLayout.get x with
  | none =>
    rw [decodeParam_of_none p hd]
    exact .dropped
  | some d =>
    rcases Nat.lt_or_ge p.length d.size with hshort | hlen
    · rw [decodeParam_of_short hd hshort]
      exact .dropped
    · rw [decodeParam_of_complete hd hlen]
      exact .sensor x d _ hd fun hwf => holds_readLayout hwf hlen

end

/-- The effect of a selected operation, at the time it carries. -/
theorem runFrame_effect {now : Nat} {i : Instr} (s : State) (htime : ∀ p n, i = .decCh p n → n = now) :
    FrameEffect now s (runFrame i s) := by
  cases i with
  | decCh p n =>
    obtain rfl := htime p n rfl
    exact decodeCh_effect n p s
  | decLs p => exact decodeLs_effect now p s
  | decGps p => exact decodeGps_effect now p s
  | decBat p => exact decodeBat_effect now p s
  | decAtt p => exact decodeAtt_effect now p s
  | decParamVario p => exact decodeParam_effect now p s .vario
  | decParamBaro p => exact decodeParam_effect now p s .baro
  | decParamAirspeed p => exact decodeParam_effect now p s .airspeed
  | decParamRpm p => exact decodeParam_effect now p s .rpm
  | decParamTemp p => exact decodeParam_effect now p s .temp
  | decParamCells p => exact decodeParam_effect now p s .cells
  | decUnk t p => exact .dropped
  | reset => exact .dropped
  | feed b n => exact .dropped
  | poll n => exact .dropped
  | send a t p => exact .dropped
  | ptSet v => exact .dropped

theorem instr_ite_ne {p : Prop} [Decidable p] {i j k : Instr} (hi : i ≠ k) (hj : j ≠ k) : (if p then i else j) ≠ k := by
  split
  · exact hi
  · exact hj

/-- A selected channel operation carries the time of the `FEED` that completed its frame (D25). -/
theorem time_of_frameInstr {c : Config} {now n : Nat} {t : Byte} {p q : List Byte}
    (h : frameInstr c now t p = .decCh q n) : n = now := by
  by_cases hch : t = c.typeCh
  · rw [frameInstr, if_pos hch] at h
    cases h
    rfl
  · refine absurd h ?_
    rw [frameInstr, if_neg hch]
    iterate 10 refine instr_ite_ne nofun ?_
    nofun

theorem dispatch_effect (now : Nat) (s : State) : FrameEffect now s (dispatch now s) := by
  unfold dispatch
  split
  · exact .dropped
  · exact runFrame_effect s fun _ _ h => time_of_frameInstr h

/-- A frame operation as an arm of its own has the same effects (log entry 13). -/
theorem exec_frame_effect {i : Instr} {s t : State} (hi : i.isCommand = false) (h : exec i s = .next t) :
    ∃ now, FrameEffect now s t := by
  rw [exec_frame i s hi] at h
  cases h
  by_cases htime : ∃ p n, i = .decCh p n
  · obtain ⟨p, n, rfl⟩ := htime
    exact ⟨n, decodeCh_effect n p s⟩
  · exact ⟨0, runFrame_effect s fun p n hi => absurd ⟨p, n, hi⟩ htime⟩

/-- A frame that is not dropped reports, and what it reports is no stray byte (R217). -/
theorem FrameEffect.events {now : Nat} {s t : State} (h : FrameEffect now s t) :
    t = s ∨ ∃ new, t.events = s.events ++ new ∧ new ≠ [] ∧ ∀ e ∈ new, notOob e = true := by
  cases h with
  | dropped => exact .inl rfl
  | channels raw =>
    refine .inr ⟨(if s.linkUp then [] else [.linkUp]) ++ [.channels raw (usOf raw)], ?_, by simp, ?_⟩
    · rw [emit_events, linkBeat_spec, List.append_assoc]
      rfl
    · split <;> simp [notOob]
  | linkStats r => exact .inr ⟨[.linkStats r], rfl, List.cons_ne_nil _ _, by simp [notOob]⟩
  | gps r => exact .inr ⟨[.gps r], rfl, List.cons_ne_nil _ _, by simp [notOob]⟩
  | battery r => exact .inr ⟨[.battery r], rfl, List.cons_ne_nil _ _, by simp [notOob]⟩
  | attitude r => exact .inr ⟨[.attitude r], rfl, List.cons_ne_nil _ _, by simp [notOob]⟩
  | sensor x d r => exact .inr ⟨[.sensor x r], rfl, List.cons_ne_nil _ _, by simp [notOob]⟩

/-- No frame touches the buffer, the flag, the configuration or a port (R40). -/
theorem FrameEffect.keepsBuffer {now : Nat} {s t : State} (h : FrameEffect now s t) : KeepsBuffer s t := by
  cases h with
  | dropped => exact .refl s
  | channels raw =>
    obtain ⟨h1, h2, h3, h4, h5, h6, h7, h8⟩ := linkBeat_keepsBuffer now (setChRaw raw s)
    exact ⟨h1, h2, h3, h4, h5, h6, h7, h8⟩
  | linkStats r => exact ⟨rfl, rfl, rfl, rfl, rfl, rfl, rfl, rfl⟩
  | gps r => exact ⟨rfl, rfl, rfl, rfl, rfl, rfl, rfl, rfl⟩
  | battery r => exact ⟨rfl, rfl, rfl, rfl, rfl, rfl, rfl, rfl⟩
  | attitude r => exact ⟨rfl, rfl, rfl, rfl, rfl, rfl, rfl, rfl⟩
  | sensor x d r => exact ⟨rfl, rfl, rfl, rfl, rfl, rfl, rfl, rfl⟩

/-! The receive operations (R110, R121). -/

/-- A property that no buffer write, no reported stray byte and no frame dispatched at `now` can end. -/
structure KeptByReceive (now : Nat) (P : State → Prop) : Prop where
  buffer : ∀ (t : State) (m : Memory) (l x : Nat), P t → P { t with rxBuf := m, rxLen := l, lastRxTime := x }
  stray : ∀ (t : State) (b : Byte), P t → P (emit (.oob b) t)
  frame : ∀ (t u : State), P t → FrameEffect now t u → P u

namespace KeptByReceive

variable {now : Nat} {P : State → Prop} {s : State}

theorem discard1 (h : KeptByReceive now P) (hs : P s) : P (Machine.discard1 s) :=
  h.stray _ _ (h.buffer s (copyDown s.rxBuf 1 (s.rxLen - 1)) (s.rxLen - 1) s.lastRxTime hs)

theorem consumeFrame (h : KeptByReceive now P) (hs : P s) : P (Machine.consumeFrame now s) :=
  have hu := h.frame s _ hs (dispatch_effect now s)
  h.buffer _ (copyDown (dispatch now s).rxBuf (frontLength s + 2) ((dispatch now s).rxLen - (frontLength s + 2)))
    ((dispatch now s).rxLen - (frontLength s + 2)) (dispatch now s).lastRxTime hu

theorem eval (h : KeptByReceive now P) (hs : P s) : P (Machine.eval now s) :=
  evalLoop_induct now P (fun _ ht _ => h.discard1 ht) (fun _ ht _ _ _ => h.consumeFrame ht) _ s hs

theorem flush (h : KeptByReceive now P) (n : Nat) (hs : P s) : P (Machine.flush n s) :=
  flush_induct P (fun _ ht _ => h.discard1 ht) n s hs

theorem idleFlush (h : KeptByReceive now P) (hs : P s) : P (Machine.idleFlush now s) := by
  unfold Machine.idleFlush
  split
  · exact h.flush _ hs
  · exact hs

theorem assemble (h : KeptByReceive now P) (b : Byte) (hs : P s) : P (Machine.assemble b now s) := by
  have hreceived : P (received b now s) := by
    rw [received_eq]
    exact h.buffer s _ _ now hs
  rw [assemble_eq, overflowTest_eq]
  exact h.buffer _ _ _ _ (h.eval hreceived)

end KeptByReceive

/-- The flag and the configuration are not the receive side's (R40). -/
theorem keptByReceive_ports (now : Nat) (s : State) :
    KeptByReceive now fun t => t.passthrough = s.passthrough ∧ t.cfg = s.cfg where
  buffer _ _ _ _ h := h
  stray _ _ h := h
  frame _ _ h hu := ⟨hu.keepsBuffer.passthrough.trans h.1, hu.keepsBuffer.cfg.trans h.2⟩

/-- The ways `FEED` ends in a state (R110, R201). -/
theorem exec_feed_cases {b : Byte} {now : Nat} {s t : State} (h : exec (.feed b now) s = .next t) :
    (s.passthrough = true ∧ t = emit (.oob b) s) ∨
    (s.passthrough = false ∧ s.rxLen < s.cfg.rxCap ∧ t = assemble b now s) := by
  cases hpt : s.passthrough with
  | true =>
    rw [exec_feed_passthrough b now hpt] at h
    cases h
    exact .inl ⟨rfl, rfl⟩
  | false =>
    rcases Nat.lt_or_ge s.rxLen s.cfg.rxCap with hlt | hge
    · rw [exec_feed_assembles b now s hpt hlt] at h
      cases h
      exact .inr ⟨rfl, hlt, rfl⟩
    · change execFeed b now s = _ at h
      rw [execFeed, hpt, if_neg Bool.false_ne_true, if_pos hge] at h
      cases h

/-- The one way `POLL` ends in a state (R121, R183). -/
theorem exec_poll_cases {now : Nat} {s t : State} (h : exec (.poll now) s = .next t) :
    t = linkCheck now (idleFlush now s) := by
  change execPoll now s = _ at h
  unfold execPoll at h
  split at h
  · cases h
  · cases h
    rfl

/-- A property kept by the receive side, whichever way `FEED` goes. -/
theorem KeptByReceive.exec_feed {b : Byte} {now : Nat} {P : State → Prop} {s t : State} (h : KeptByReceive now P) (hs : P s)
    (hexec : exec (.feed b now) s = .next t) : P t := by
  obtain ⟨-, rfl⟩ | ⟨-, -, rfl⟩ := exec_feed_cases hexec
  · exact h.stray s b hs
  · exact h.assemble b hs

/-- Settles O39: `FEED` and `POLL` need the bound of R25, the other operations nothing. -/
theorem everyOperationCompletes : Obligations.EveryOperationCompletes := by
  intro i s hlt
  cases hi : i.isCommand with
  | false => exact ⟨_, exec_frame i s hi⟩
  | true =>
    cases i with
    | reset => exact ⟨_, exec_reset s⟩
    | feed b now =>
      cases hpt : s.passthrough with
      | true => exact ⟨_, exec_feed_passthrough b now hpt⟩
      | false => exact ⟨_, exec_feed_assembles b now s hpt hlt⟩
    | poll now => exact ⟨_, exec_poll_completes now hlt.le⟩
    | send addr type p => exact ⟨_, exec_send addr type p s⟩
    | ptSet v => exact ⟨_, exec_ptSet v s⟩
    | _ => cases hi

end Sys2Proof.Machine
end

section
/-! The evaluation loop's end: it stops in a stable state (R124) after at most `rx_len` iterations (R123), whatever the memory
holds; and what that makes of `FEED` (R125). -/

namespace Sys2Proof.Machine

/-- The loop ends only where it waits (R124). -/
theorem stable_eval (now : Nat) (s : State) : Stable (eval now s) := by
  induction hlen : s.rxLen using Nat.strong_induction_on generalizing s with
  | _ len ih =>
    cases hstep : evalStep now s with
    | none =>
      have hstable := (evalStep_eq_none_iff now s).mp hstep
      rwa [eval_of_stable now hstable]
    | some t =>
      rw [eval_of_evalStep hstep]
      exact ih t.rxLen (hlen ▸ rxLen_lt_of_evalStep hstep) t rfl

theorem evalLoop_rxLen_le (now fuel : Nat) (s : State) : (evalLoop now fuel s).rxLen ≤ s.rxLen := by
  refine evalLoop_induct now (·.rxLen ≤ s.rxLen) (fun t ht _ => ?_) (fun t ht _ _ _ => ?_) fuel s le_rfl
  · rw [discard1_rxLen]
    omega
  · obtain ⟨-, hlen, -⟩ := consumeFrame_keeps now t
    omega

theorem stable_overflowTest (place : OverflowCheck) {s : State} (h : Stable s) : Stable (overflowTest place s) := by
  rw [overflowTest_spec]
  split
  · exact .inl Nat.zero_lt_two
  · exact h

theorem stable_assemble (b : Byte) (now : Nat) (s : State) : Stable (assemble b now s) := by
  rw [assemble_eq]
  exact stable_overflowTest _ (stable_eval now _)

/-- A loop that ends with a full buffer began with one: then the first test was not configured, and the second empties it. -/
theorem assemble_rxLen_lt_of_lt (b : Byte) (now : Nat) {s : State} (hlt : s.rxLen < s.cfg.rxCap) :
    (assemble b now s).rxLen < s.cfg.rxCap := by
  have hcfg : (eval now (received b now s)).cfg = s.cfg := by rw [eval_cfg, received_eq]
  have hloop : (eval now (received b now s)).rxLen ≤ (received b now s).rxLen := evalLoop_rxLen_le ..
  have hreceived := received_rxLen_le b now s
  have hlast := overflowTest_rxLen_le .afterEval (eval now (received b now s))
  rw [assemble_eq]
  by_cases hfull : (eval now (received b now s)).rxLen = s.cfg.rxCap
  · have hplace : s.cfg.overflowCheck = .afterEval := by
      cases hplace : s.cfg.overflowCheck with
      | afterEval => rfl
      | beforeEval =>
        have hempty : (received b now s).rxLen = 0 := by rw [received_of_filling b now hplace (by omega)]
        omega
    rw [overflowTest_of_full (hcfg ▸ hplace) (by rw [hcfg, hfull])]
    exact Nat.zero_lt_of_lt hlt
  · omega

/-- A stable cursor is below the end of the largest frame. -/
theorem rxLen_le_of_stable {s : State} (hmax : 1 ≤ s.cfg.maxFrameSize) (h : Stable s) :
    s.rxLen ≤ s.cfg.maxFrameSize + 1 := by
  obtain hshort | ⟨-, hle, hincomplete⟩ := h <;> omega

/-- Settles O52: a byte past the gate ends with the loop, a byte before it leaves the stable state as it was. -/
theorem feedLeavesStableState : Obligations.FeedLeavesStableState := by
  intro b now s t hwf hstable hlt hexec
  have hcfg : t.cfg = s.cfg := ((keptByReceive_ports now s).exec_feed ⟨rfl, rfl⟩ hexec).2
  have hend : Stable t ∧ t.rxLen < s.cfg.rxCap := by
    obtain ⟨-, rfl⟩ | ⟨-, -, rfl⟩ := exec_feed_cases hexec
    · exact ⟨hstable, hlt⟩
    · exact ⟨stable_assemble b now s, assemble_rxLen_lt_of_lt b now hlt⟩
  have hmax := maxFrameSize_of_wf hwf
  have hle := rxLen_le_of_stable (by rw [hcfg]; omega) hend.1
  rw [hcfg] at hle
  exact ⟨hend.1, by omega⟩

/-! The bounds of the loops (R123). -/

/-- The flush needs as many discards as there are bytes. -/
theorem flush_eq_of_rxLen_le {n : Nat} {s : State} (h : s.rxLen ≤ n) :
    flush n s = flush s.rxLen s ∧ (flush n s).rxLen = 0 := by
  induction n generalizing s with
  | zero =>
    have hempty : s.rxLen = 0 := Nat.le_zero.mp h
    exact ⟨by rw [hempty], hempty⟩
  | succ n ih =>
    by_cases hempty : s.rxLen = 0
    · have hstay : flush (n + 1) s = s := if_pos hempty
      rw [hstay, hempty]
      exact ⟨rfl, rfl⟩
    · obtain ⟨k, hk⟩ : ∃ k, s.rxLen = k + 1 := ⟨s.rxLen - 1, by omega⟩
      have hdiscard : (discard1 s).rxLen = k := by rw [discard1_rxLen, hk, Nat.add_sub_cancel]
      have hrest := ih (s := discard1 s) (by omega)
      rw [hdiscard] at hrest
      rw [hk, flush, flush, if_neg hempty, if_neg hempty]
      exact hrest

/-- Settles O35: more iterations than bytes change nothing, and each iteration's loss is its own rule. -/
theorem loopsTerminate : Obligations.LoopsTerminate := by
  intro now n s
  refine ⟨fun h => ⟨evalLoop_eq_eval now h, flush_eq_of_rxLen_le h⟩, fun hpos => ?discard, fun h3 hlen => ?consume⟩
  case discard =>
    rw [discard1_rxLen]
    omega
  case consume =>
    obtain ⟨-, hrest, -⟩ := consumeFrame_keeps now s
    omega

/-! A candidate that cannot fit (R125). -/

theorem frontLength_append (b : Byte) {s : State} (hw : s.rxBuf.wf = true) (h : 2 ≤ s.rxLen) :
    frontLength (append b s) = frontLength s := by
  rw [frontLength, rxByte, append_rxBuf, Memory.read_write _ _ _ _ hw, if_neg (by omega)]
  rfl

/-- Settles O43: below the capacity the candidate is still incomplete after the append; at the capacity the first test is
met. -/
theorem oversizedNeverDelivered : Obligations.OversizedNeverDelivered := by
  intro b now s hw hpt hplace h2 hlt h3 hmax hbig
  by_cases hfull : s.rxLen + 1 = s.cfg.rxCap
  · refine ⟨_, feedOverflow b now s hpt hplace hfull, rfl, .inr ⟨hfull, ?_⟩⟩
    exact List.eq_nil_of_length_eq_zero (buffered_length _)
  · have hfront : frontLength (append b (stampRx now s)) = frontLength s := frontLength_append b (s := stampRx now s) hw h2
    have hstable : Stable (append b (stampRx now s)) := by
      refine .inr ?_
      rw [hfront, append_cfg, append_rxLen]
      exact ⟨h3, hmax, by rw [stampRx_rxLen]; omega⟩
    refine ⟨append b (stampRx now s), ?_, rfl, .inl ⟨by omega, buffered_append b (stampRx now s) hw⟩⟩
    rw [exec_feed_assembles b now s hpt hlt, assemble_of_stable hfull hstable]

end Sys2Proof.Machine
end

section
/-! Who writes what (R40), and what only out-of-band bytes leave alone (R229). -/

namespace Sys2Proof.Machine

/-- Only the buffer, the cursor and the events can change in an idle flush (R121). -/
theorem exists_flush_eq (n : Nat) (s : State) :
    ∃ m l ev, flush n s = { s with rxBuf := m, rxLen := l, events := ev } := by
  refine flush_induct (fun t => ∃ m l ev, t = { s with rxBuf := m, rxLen := l, events := ev }) ?_ n s ⟨_, _, _, rfl⟩
  rintro _ ⟨m, l, ev, rfl⟩ -
  exact ⟨_, _, _, discard1_eq _⟩

/-- What `POLL` can write (R40, R121, R183): the buffer, the cursor, the events, and the link only to Down. -/
theorem exists_poll_eq {now : Nat} {s t : State} (h : exec (.poll now) s = .next t) :
    ∃ m l up ev, t = { s with rxBuf := m, rxLen := l, linkUp := up, events := ev } ∧ (up = true → s.linkUp = true) := by
  have hflush : ∃ m l ev, idleFlush now s = { s with rxBuf := m, rxLen := l, events := ev } := by
    unfold idleFlush
    split
    · exact exists_flush_eq _ s
    · exact ⟨_, _, _, rfl⟩
  obtain ⟨m, l, ev, heq⟩ := hflush
  rw [exec_poll_cases h, linkCheck_eq, heq]
  refine ⟨m, l, _, _, rfl, fun hup => ?_⟩
  split at hup
  · cases hup
  · exact hup

/-- Settles O40: operation by operation, the fields its rule leaves alone. -/
theorem writersOfState : Obligations.WritersOfState := by
  intro i s t hi hexec
  cases i with
  | reset =>
    rw [resetResult s] at hexec
    cases hexec
    simp
  | feed b now =>
    obtain ⟨hpt, hcfg⟩ := (keptByReceive_ports now s).exec_feed ⟨rfl, rfl⟩ hexec
    have hlink : s.linkUp = true → t.linkUp = true := by
      obtain ⟨-, rfl⟩ | ⟨-, -, rfl⟩ := exec_feed_cases hexec
      · exact id
      · exact (assemble_onlyReports b now s).linkUp
    have htime : t.lastRxTime ≠ s.lastRxTime → s.passthrough = false := by
      obtain ⟨-, rfl⟩ | ⟨hopen, -, -⟩ := exec_feed_cases hexec
      · exact fun hne => absurd rfl hne
      · exact fun _ => hopen
    have hfeed : ∃ b' now', Instr.feed b now = .feed b' now' := ⟨b, now, rfl⟩
    exact ⟨fun _ => .inl hfeed, fun _ => .inr (.inl hfeed), fun hne => ⟨htime hne, hfeed⟩, fun _ _ => hfeed,
      fun hup hdown => absurd (hlink hup) (by rw [hdown]; exact Bool.false_ne_true), fun _ => hfeed,
      fun hne => absurd hpt hne, fun _ => .inr hfeed, hcfg⟩
  | poll now =>
    obtain ⟨m, l, up, ev, rfl, hup⟩ := exists_poll_eq hexec
    have hraise : s.linkUp = false → up = true → False := fun hdown h => by rw [hup h] at hdown; cases hdown
    simpa using hraise
  | send addr type p =>
    rw [exec_send, sendFrame_spec] at hexec
    cases hexec
    split <;> simp
  | ptSet v =>
    rw [ptSetResult v s] at hexec
    cases hexec
    simp
  | _ => cases hi

/-- What R229 calls the decoded state. -/
structure SameDecoded (s t : State) : Prop where
  chRaw : t.chRaw = s.chRaw
  ls : t.ls = s.ls
  gps : t.gps = s.gps
  bat : t.bat = s.bat
  att : t.att = s.att
  sens : t.sens = s.sens
  linkUp : t.linkUp = s.linkUp
  lastChTime : t.lastChTime = s.lastChTime

/-- The receive side reports every change of the decoded state by an event that is no stray byte. -/
theorem keptByReceive_decoded (now : Nat) (s : State) :
    KeptByReceive now fun t =>
      ∃ new, t.events = s.events ++ new ∧ ((∀ e ∈ new, notOob e = false) → SameDecoded s t) where
  buffer t m l x h := by
    obtain ⟨new, hev, hsame⟩ := h
    refine ⟨new, hev, fun hnew => ?_⟩
    obtain ⟨h1, h2, h3, h4, h5, h6, h7, h8⟩ := hsame hnew
    exact ⟨h1, h2, h3, h4, h5, h6, h7, h8⟩
  stray t b h := by
    obtain ⟨new, hev, hsame⟩ := h
    refine ⟨new ++ [.oob b], by rw [emit_events, hev, List.append_assoc], fun hnew => ?_⟩
    obtain ⟨h1, h2, h3, h4, h5, h6, h7, h8⟩ := hsame fun e he => hnew e (List.mem_append_left _ he)
    exact ⟨h1, h2, h3, h4, h5, h6, h7, h8⟩
  frame t u h hu := by
    obtain ⟨new, hev, hsame⟩ := h
    obtain rfl | ⟨more, hmore, hne, hreport⟩ := hu.events
    · exact ⟨new, hev, hsame⟩
    · refine ⟨new ++ more, by rw [hmore, hev, List.append_assoc], fun hnew => ?_⟩
      obtain ⟨e, he⟩ := List.exists_mem_of_ne_nil more hne
      have hstray := hnew e (List.mem_append_right _ he)
      rw [hreport e he] at hstray
      cases hstray

/-- Settles O41: stray bytes only, so no frame was decoded. -/
theorem faultsKeepDecodedState : Obligations.FaultsKeepDecodedState := by
  intro b now s t new hexec hev hnew
  obtain ⟨new', hev', hsame⟩ := (keptByReceive_decoded now s).exec_feed
    ⟨[], (List.append_nil _).symm, fun _ => ⟨rfl, rfl, rfl, rfl, rfl, rfl, rfl, rfl⟩⟩ hexec
  obtain rfl := List.append_cancel_left (hev'.symm.trans hev)
  obtain ⟨hch, hls, hgps, hbat, hatt, hsens, hup, htime⟩ := hsame hnew
  have hpt := ((keptByReceive_ports now s).exec_feed ⟨rfl, rfl⟩ hexec).1
  exact ⟨hch, hls, hgps, hbat, hatt, hsens, hup, htime, hpt⟩

end Sys2Proof.Machine
end

section
/-! Byte accounting (R228): the buffer before an operation, cut into what left it and what is still there. -/

namespace Sys2Proof.Machine

theorem oobBytes_append (es fs : List Event) : oobBytes (es ++ fs) = oobBytes es ++ oobBytes fs :=
  List.filterMap_append ..

theorem oobBytes_map_oob (bytes : List Byte) : oobBytes (bytes.map Event.oob) = bytes := by
  rw [oobBytes, List.filterMap_map]
  exact List.filterMap_some

theorem oobBytes_of_notOob {es : List Event} (h : ∀ e ∈ es, notOob e = true) : oobBytes es = [] := by
  refine List.filterMap_eq_nil_iff.mpr fun e he => ?_
  have hreport := h e he
  cases e <;> first | rfl | cases hreport

/-- `t` holds what `s` held, less some stray bytes, each reported, and some frames that decode (R228). -/
def Accounted (now : Nat) (s t : State) : Prop :=
  ∃ (chunks : List Chunk) (new : List Event),
    buffered s = chunks.flatMap Chunk.bytes ++ buffered t ∧ t.events = s.events ++ new ∧
    oobBytes new = chunks.filterMap Chunk.strayByte ∧
    ∀ f, Chunk.frame f ∈ chunks → ∃ i, decodeFrame s.cfg now f = .ok i

theorem Accounted.refl (now : Nat) (s : State) : Accounted now s s :=
  ⟨[], [], rfl, (List.append_nil _).symm, rfl, fun _ h => absurd h List.not_mem_nil⟩

theorem Accounted.trans {now : Nat} {s t u : State} (hcfg : t.cfg = s.cfg) (h : Accounted now s t)
    (h' : Accounted now t u) : Accounted now s u := by
  obtain ⟨chunks, new, hbuf, hev, hoob, hframes⟩ := h
  obtain ⟨chunks', new', hbuf', hev', hoob', hframes'⟩ := h'
  refine ⟨chunks ++ chunks', new ++ new', ?_, ?_, ?_, fun f hf => ?_⟩
  · rw [List.flatMap_append, List.append_assoc, ← hbuf', hbuf]
  · rw [hev', hev, List.append_assoc]
  · rw [oobBytes_append, List.filterMap_append, hoob, hoob']
  · rcases List.mem_append.mp hf with hmem | hmem
    · exact hframes f hmem
    · exact hcfg ▸ hframes' f hmem

/-- A discarded byte is reported (R119). -/
theorem accounted_discard1 (now : Nat) {s : State} (hw : s.rxBuf.wf = true) (hpos : 0 < s.rxLen) :
    Accounted now s (discard1 s) := by
  obtain ⟨k, hk⟩ : ∃ k, s.rxLen = k + 1 := ⟨s.rxLen - 1, by omega⟩
  refine ⟨[.stray (rxByte s 0)], [.oob (rxByte s 0)], ?_, rfl, rfl, fun f hf => ?_⟩
  · rw [buffered_discard1 s hw, buffered, hk, memRead_cons]
    rfl
  · rw [List.mem_singleton] at hf
    cases hf

/-- A consumed candidate is a frame that decodes (R116, R117), and its dispatch reports no stray byte. -/
theorem accounted_consumeFrame (now : Nat) {s : State} (hw : s.rxBuf.wf = true)
    (hp : plausible s.cfg (frontLength s) = true) (hlen : frontLength s + 2 ≤ s.rxLen) (hcrc : frontCrcOk s = true) :
    Accounted now s (consumeFrame now s) := by
  obtain ⟨h3, hmax⟩ := (plausible_iff ..).mp hp
  have hnew : ∃ new, (dispatch now s).events = s.events ++ new ∧ oobBytes new = [] := by
    obtain heq | ⟨new, hev, -, hreport⟩ := (dispatch_effect now s).events
    · exact ⟨[], by rw [heq, List.append_nil], rfl⟩
    · exact ⟨new, hev, oobBytes_of_notOob hreport⟩
  obtain ⟨new, hev, hoob⟩ := hnew
  refine ⟨[.frame (memRead s.rxBuf 0 (frontLength s + 2))], new, ?_, hev, hoob, fun f hf => ?_⟩
  · have hfront := memRead_take_drop s.rxBuf 0 s.rxLen (frontLength s + 2) 0 (by omega)
    rw [buffered_consumeFrame now s hw, List.flatMap_singleton, Chunk.bytes]
    rw [List.drop_zero, Nat.add_zero] at hfront
    rw [← hfront, buffered, List.take_append_drop]
  · obtain rfl := Chunk.frame.inj (List.mem_singleton.mp hf)
    exact ⟨_, decodeFrame_front now h3 hmax hcrc⟩

theorem accounted_eval (now : Nat) {s : State} (hw : s.rxBuf.wf = true) : Accounted now s (eval now s) := by
  suffices h : (eval now s).rxBuf.wf = true ∧ (eval now s).cfg = s.cfg ∧ Accounted now s (eval now s) from h.2.2
  refine evalLoop_induct now (fun t => t.rxBuf.wf = true ∧ t.cfg = s.cfg ∧ Accounted now s t) ?_ ?_ s.rxLen s
    ⟨hw, rfl, .refl now s⟩
  · rintro t ⟨htw, hcfg, hacc⟩ hlen
    obtain ⟨hcopy, -⟩ := copyDown_spec t.rxBuf 1 (t.rxLen - 1) htw
    exact ⟨hcopy, hcfg, hacc.trans hcfg (accounted_discard1 now htw (by omega))⟩
  · rintro t ⟨htw, hcfg, hacc⟩ hp hlen hcrc
    obtain ⟨hbuf, -, -, hcfg', -⟩ := consumeFrame_keeps now t
    obtain ⟨hcopy, -⟩ := copyDown_spec t.rxBuf (frontLength t + 2) (t.rxLen - (frontLength t + 2)) htw
    exact ⟨hbuf ▸ hcopy, hcfg'.trans hcfg, hacc.trans hcfg (accounted_consumeFrame now htw hp hlen hcrc)⟩

/-- Below the overflow `FEED` is the append and the loop (R110). -/
theorem assemble_of_room (b : Byte) (now : Nat) {s : State} (h : s.rxLen + 1 < s.cfg.rxCap) :
    assemble b now s = eval now (append b (stampRx now s)) := by
  have hreceived : received b now s = append b (stampRx now s) :=
    overflowTest_of_ne _ (by rw [append_rxLen, append_cfg, stampRx_rxLen, stampRx_cfg]; omega)
  have hle : (eval now (append b (stampRx now s))).rxLen ≤ s.rxLen + 1 := evalLoop_rxLen_le ..
  rw [assemble_eq, hreceived, overflowTest_of_ne]
  rw [eval_cfg, append_cfg, stampRx_cfg]
  omega

/-- Settles O42: the loop accounts for every byte below the overflow; the other four ways are the operations' own rules. -/
theorem byteAccounting : Obligations.ByteAccounting := by
  have hempty {t : State} (h : t.rxLen = 0) : buffered t = [] :=
    List.eq_nil_of_length_eq_zero (by rw [buffered_length, h])
  refine ⟨fun b now s hw hpt hroom => ?loop, fun b now s hpt hplace hfull => ?overflow, fun b now s hpt => ?passthrough,
    fun now s hw hlt => ?poll, fun s => ⟨_, resetResult s, hempty (t := { s with rxLen := 0 }) rfl, rfl⟩⟩
  case loop =>
    have happend := buffered_append b (stampRx now s) hw
    obtain ⟨chunks, new, hbuf, hev, hoob, hframes⟩ :=
      accounted_eval now (s := append b (stampRx now s)) (Memory.wf_write _ _ _ hw)
    refine ⟨eval now (append b (stampRx now s)), chunks, new, ?_, happend ▸ hbuf, hev, hoob, hframes⟩
    rw [exec_feed_assembles b now s hpt (by omega), assemble_of_room b now hroom]
  case overflow => exact ⟨_, feedOverflow b now s hpt hplace hfull, hempty rfl, rfl⟩
  case passthrough => exact ⟨_, feedUnderPassthrough b now s hpt, rfl, rfl⟩
  case poll =>
    obtain ⟨m, hexec, hkept, -⟩ := pollResult now s hw hlt.le
    refine ⟨_, _, hexec, List.append_assoc .., ?_⟩
    have hlink {late : Prop} [Decidable late] : oobBytes (if late then [Event.linkDown] else []) = [] := by
      split <;> rfl
    rw [oobBytes_append, hlink, List.append_nil]
    split
    next hidle =>
      rw [oobBytes_map_oob]
      exact (List.append_nil _).symm.trans (congrArg (buffered s ++ ·) (hempty rfl).symm)
    next hbusy =>
      rw [hkept hbusy]
      rfl

end Sys2Proof.Machine
end

section
/-! The link events (R186): the state machine that reads them and its agreement with `link_up` along a run. -/

namespace Sys2Proof.Machine

/-- The state of the link after an event list that finds it in `up`. -/
def linkAfter (up : Bool) (es : List Event) : Bool :=
  es.foldl (fun v e => match e with
    | .linkUp => true
    | .linkDown => false
    | _ => v) up

theorem linkAfter_append (up : Bool) (es fs : List Event) : linkAfter up (es ++ fs) = linkAfter (linkAfter up es) fs :=
  List.foldl_append ..

/-- `alternates` reads a list from the front, `linkAfter` says in which state it meets what follows. -/
theorem alternates_append (up : Bool) (es fs : List Event) :
    alternates up (es ++ fs) = (alternates up es && alternates (linkAfter up es) fs) := by
  induction es generalizing up with
  | nil => rfl
  | cons e es ih =>
    cases e with
    | linkUp => exact (congrArg (!up && ·) (ih true)).trans (Bool.and_assoc ..).symm
    | linkDown => exact (congrArg (up && ·) (ih false)).trans (Bool.and_assoc ..).symm
    | _ => exact ih up

/-- Alternating events: one rise more than falls for a link that went up, and conversely. -/
theorem count_of_alternates {up : Bool} {es : List Event} (h : alternates up es = true) :
    es.count .linkUp + up.toNat = es.count .linkDown + (linkAfter up es).toNat := by
  induction es generalizing up with
  | nil => rfl
  | cons e es ih =>
    rw [List.count_cons, List.count_cons]
    cases e with
    | linkUp =>
      obtain ⟨hdown, hrest⟩ := Bool.and_eq_true _ _ ▸ h
      have := ih hrest
      cases up with
      | true => cases hdown
      | false => simp [linkAfter] at this ⊢; omega
    | linkDown =>
      obtain ⟨hup, hrest⟩ := Bool.and_eq_true _ _ ▸ h
      have := ih hrest
      cases up with
      | false => cases hup
      | true => simp [linkAfter] at this ⊢; omega
    | _ => simpa [linkAfter] using ih h

/-- The link events alternate from Down and end in the state that `link_up` holds. -/
def LinkInStep (s : State) : Prop := alternates false s.events = true ∧ linkAfter false s.events = s.linkUp

/-- R186 counts; the state machine says the same. -/
theorem linkInStep_iff (s : State) :
    LinkInStep s ↔ alternates false s.events = true ∧
      (s.linkUp = true ↔ s.events.count .linkDown < s.events.count .linkUp) := by
  refine and_congr_right fun halt => ?_
  have hcount := count_of_alternates halt
  cases hup : s.linkUp <;> cases hafter : linkAfter false s.events <;> simp [hafter] at hcount ⊢ <;> omega

/-- Events appended to a state in step keep it so when they alternate from its `link_up` and end in the new one. -/
theorem LinkInStep.append {s t : State} {new : List Event} (h : LinkInStep s) (hev : t.events = s.events ++ new)
    (halt : alternates s.linkUp new = true) (hafter : linkAfter s.linkUp new = t.linkUp) : LinkInStep t := by
  obtain ⟨hold, hlink⟩ := h
  rw [LinkInStep, hev, alternates_append, linkAfter_append, hlink, hold, halt]
  exact ⟨rfl, hafter⟩

theorem linkInStep_linkBeat (now : Nat) {s : State} (h : LinkInStep s) : LinkInStep (linkBeat now s) := by
  rw [linkBeat_spec]
  refine h.append rfl ?_ ?_ <;> cases s.linkUp <;> rfl

theorem linkInStep_linkCheck (now : Nat) {s : State} (h : LinkInStep s) : LinkInStep (linkCheck now s) := by
  rw [linkCheck_eq]
  refine h.append rfl ?_ ?_
  · split
    next hlate => rw [((linkExpired_iff now s).mp hlate).1]; rfl
    next => rfl
  · dsimp only
    split <;> rfl

/-- Stray bytes and frames, a heartbeat among them, keep the link in step. -/
theorem keptByReceive_linkInStep (now : Nat) : KeptByReceive now LinkInStep where
  buffer _ _ _ _ h := h
  stray t b h := h.append (new := [.oob b]) rfl rfl rfl
  frame t u h hu := by
    cases hu with
    | dropped => exact h
    | channels raw =>
      have hbeat : LinkInStep (linkBeat now (setChRaw raw t)) := linkInStep_linkBeat now (s := setChRaw raw t) h
      exact hbeat.append (new := [.channels raw (usOf raw)]) rfl rfl rfl
    | linkStats r => exact h.append (new := [.linkStats r]) rfl rfl rfl
    | gps r => exact h.append (new := [.gps r]) rfl rfl rfl
    | battery r => exact h.append (new := [.battery r]) rfl rfl rfl
    | attitude r => exact h.append (new := [.attitude r]) rfl rfl rfl
    | sensor x d r => exact h.append (new := [.sensor x r]) rfl rfl rfl

/-- Every operation but `RESET`, which drops the flag without an event (R240), keeps the link in step. -/
theorem linkInStep_exec {i : Instr} {s t : State} (hi : i ≠ .reset) (hexec : exec i s = .next t) (h : LinkInStep s) :
    LinkInStep t := by
  cases hcmd : i.isCommand with
  | false =>
    obtain ⟨now, heffect⟩ := exec_frame_effect hcmd hexec
    exact (keptByReceive_linkInStep now).frame s t h heffect
  | true =>
    cases i with
    | reset => exact absurd rfl hi
    | feed b now => exact (keptByReceive_linkInStep now).exec_feed h hexec
    | poll now =>
      rw [exec_poll_cases hexec]
      exact linkInStep_linkCheck now ((keptByReceive_linkInStep now).idleFlush h)
    | send addr type p =>
      rw [exec_send, sendFrame_spec] at hexec
      cases hexec
      split <;> exact h
    | ptSet v =>
      rw [ptSetResult v s] at hexec
      cases hexec
      exact h
    | _ => cases hcmd

theorem runOps_cons {i : Instr} {ops : List Instr} {s t : State} (h : exec i s = .next t) :
    runOps (i :: ops) s = runOps ops t := by
  rw [runOps, h]

/-- A run that ends has run its first operation. -/
theorem exists_exec_of_runOps {i : Instr} {ops : List Instr} {s t : State} (h : runOps (i :: ops) s = .next t) :
    ∃ u, exec i s = .next u ∧ runOps ops u = .next t := by
  cases hexec : exec i s with
  | next u => exact ⟨u, rfl, runOps_cons hexec ▸ h⟩
  | fault r => rw [runOps, hexec] at h; cases h
  | refused r => rw [runOps, hexec] at h; cases h

theorem linkInStep_runOps {ops : List Instr} {s t : State} (hops : .reset ∉ ops) (hrun : runOps ops s = .next t)
    (h : LinkInStep s) : LinkInStep t := by
  induction ops generalizing s with
  | nil => cases hrun; exact h
  | cons i ops ih =>
    rw [List.mem_cons, not_or] at hops
    obtain ⟨hi, hrestOps⟩ := hops
    obtain ⟨u, hexec, hrest⟩ := exists_exec_of_runOps hrun
    exact ih hrestOps hrest (linkInStep_exec (Ne.symm hi) hexec h)

/-- Settles O45: the step form is the invariant's, and a run from a Down link without events begins in it. -/
theorem linkEventsAlternate : Obligations.LinkEventsAlternate := by
  refine ⟨fun i s t hi hexec halt hcount => ?step, fun ops s t hops hdown hnone hrun => ?run⟩
  case step => exact (linkInStep_iff t).mp (linkInStep_exec hi hexec ((linkInStep_iff s).mpr ⟨halt, hcount⟩))
  case run =>
    have hstart : LinkInStep s := by
      rw [LinkInStep, hnone, hdown]
      exact ⟨rfl, rfl⟩
    exact (linkInStep_iff t).mp (linkInStep_runOps hops hrun hstart)

end Sys2Proof.Machine
end

section
/-! The invariant of every state between operations (R14, R19, R25, R50, R124, and the records' field types), kept by every
step. -/

namespace Sys2Proof.Machine

/-- The part of the invariant that a decoder can write: the link's timestamp and the records. -/
structure RecordsInv (s : State) : Prop where
  chTime : s.lastChTime < 2 ^ s.cfg.timeW
  ls : ∀ r, s.ls = some r → r.inRange = true
  gps : ∀ r, s.gps = some r → r.inRange = true
  bat : ∀ r, s.bat = some r → r.inRange = true
  att : ∀ r, s.att = some r → r.inRange = true
  sens : ∀ x r, s.sens.get x = some r → ∃ d, s.cfg.sensorLayout.get x = some d ∧ Layout.holds d r = true

/-- The part that the receive side can write: the buffer, the cursor and `last_rx_time`. -/
structure BufferInv (s : State) : Prop where
  canonical : s.rxBuf.wf = true
  inside : s.rxBuf.inside s.cfg.rxCap = true
  lenBelow : s.rxLen < s.cfg.rxCap
  stable : Stable s
  rxTime : s.lastRxTime < 2 ^ s.cfg.timeW

theorem inv_iff (s : State) : Inv s ↔ s.cfg.wf = true ∧ BufferInv s ∧ RecordsInv s where
  mp h := ⟨h.cfgWf, ⟨h.bufCanonical, h.bufInside, h.lenBelow, h.stable, h.rxTime⟩,
    ⟨h.chTime, h.ls, h.gps, h.bat, h.att, h.sens⟩⟩
  mpr := fun ⟨hwf, hb, hr⟩ => ⟨hwf, hb.canonical, hb.inside, hb.lenBelow, hb.stable, hb.rxTime, hr.chTime, hr.ls, hr.gps,
    hr.bat, hr.att, hr.sens⟩

/-- The invariant speaks neither of the flags nor of the ports. -/
theorem Inv.withPorts {s : State} (h : Inv s) (up pt : Bool) (ev : List Event) (tx : List Byte) (acc : Option Bool)
    (host : List (List Byte)) :
    Inv { s with linkUp := up, passthrough := pt, events := ev, tx := tx, accepted := acc, host := host } :=
  ⟨h.cfgWf, h.bufCanonical, h.bufInside, h.lenBelow, h.stable, h.rxTime, h.chTime, h.ls, h.gps, h.bat, h.att, h.sens⟩

/-- An empty buffer meets its part at once. -/
theorem Inv.withEmptyBuffer {s : State} (h : Inv s) {m : Memory} (hm : m.wf = true) (hin : m.inside s.cfg.rxCap = true) :
    Inv { s with rxBuf := m, rxLen := 0 } :=
  ⟨h.cfgWf, hm, hin, Nat.zero_lt_of_lt h.lenBelow, .inl Nat.zero_lt_two, h.rxTime, h.chTime, h.ls, h.gps, h.bat, h.att,
    h.sens⟩

/-! The records. -/

theorem layout_wf_of_cfg_wf {c : Config} {x : SensorId} {d : Layout} (h : c.wf = true)
    (hd : c.sensorLayout.get x = some d) : d.wf = true := by
  have hok : c.layoutOk (c.sensorLayout.get x) = true := by
    simp only [Config.wf, Bool.and_eq_true] at h
    obtain ⟨⟨⟨⟨⟨⟨-, hvario⟩, hbaro⟩, hairspeed⟩, hrpm⟩, htemp⟩, hcells⟩ := h
    cases x with
    | vario => exact hvario
    | baro => exact hbaro
    | airspeed => exact hairspeed
    | rpm => exact hrpm
    | temp => exact htemp
    | cells => exact hcells
  rw [hd] at hok
  exact (Bool.and_eq_true _ _ ▸ hok).1

/-- A frame stores only what its field types hold, and only under a layout. -/
theorem RecordsInv.frame {now : Nat} {s t : State} (h : RecordsInv s) (hwf : s.cfg.wf = true)
    (hnow : now < 2 ^ s.cfg.timeW) (ht : FrameEffect now s t) : RecordsInv t := by
  cases ht with
  | dropped => exact h
  | channels raw =>
    rw [linkBeat_spec]
    exact ⟨hnow, h.ls, h.gps, h.bat, h.att, h.sens⟩
  | linkStats r hr => exact ⟨h.chTime, fun q hq => Option.some.inj hq ▸ hr, h.gps, h.bat, h.att, h.sens⟩
  | gps r hr => exact ⟨h.chTime, h.ls, fun q hq => Option.some.inj hq ▸ hr, h.bat, h.att, h.sens⟩
  | battery r hr => exact ⟨h.chTime, h.ls, h.gps, fun q hq => Option.some.inj hq ▸ hr, h.att, h.sens⟩
  | attitude r hr => exact ⟨h.chTime, h.ls, h.gps, h.bat, fun q hq => Option.some.inj hq ▸ hr, h.sens⟩
  | sensor x d r hd hr =>
    refine ⟨h.chTime, h.ls, h.gps, h.bat, h.att, fun y q hq => ?_⟩
    change (s.sens.set x (some r)).get y = some q at hq
    by_cases hyx : y = x
    · subst hyx
      rw [PerSensor_get_set_same] at hq
      exact ⟨d, hd, Option.some.inj hq ▸ hr (layout_wf_of_cfg_wf hwf hd)⟩
    · rw [PerSensor_get_set_other _ _ _ _ hyx] at hq
      exact h.sens y q hq

theorem keptByReceive_records {now : Nat} {s : State} (hwf : s.cfg.wf = true) (hnow : now < 2 ^ s.cfg.timeW) :
    KeptByReceive now fun t => t.cfg = s.cfg ∧ RecordsInv t where
  buffer _ _ _ _ h := ⟨h.1, h.2.chTime, h.2.ls, h.2.gps, h.2.bat, h.2.att, h.2.sens⟩
  stray _ _ h := ⟨h.1, h.2.chTime, h.2.ls, h.2.gps, h.2.bat, h.2.att, h.2.sens⟩
  frame _ _ h hu := ⟨hu.keepsBuffer.cfg.trans h.1, h.2.frame (h.1 ▸ hwf) (h.1 ▸ hnow) hu⟩

/-! The buffer. -/

theorem evalLoop_inside (now fuel cap : Nat) {s : State} (hin : s.rxBuf.inside cap = true) (hlen : s.rxLen ≤ cap) :
    (evalLoop now fuel s).rxBuf.inside cap = true := by
  suffices h : (evalLoop now fuel s).rxBuf.inside cap = true ∧ (evalLoop now fuel s).rxLen ≤ cap from h.1
  refine evalLoop_induct now (fun t => t.rxBuf.inside cap = true ∧ t.rxLen ≤ cap) ?_ ?_ fuel s ⟨hin, hlen⟩
  · rintro t ⟨ht, hle⟩ -
    exact ⟨copyDown_inside cap _ _ _ ht (by omega), by rw [discard1_rxLen]; omega⟩
  · rintro t ⟨ht, hle⟩ - - -
    obtain ⟨hbuf, hrest, -⟩ := consumeFrame_keeps now t
    exact ⟨hbuf ▸ copyDown_inside cap _ _ _ ht (by omega), by omega⟩

theorem flush_inside (n cap : Nat) {s : State} (hin : s.rxBuf.inside cap = true) (hlen : s.rxLen ≤ cap) :
    (flush n s).rxBuf.inside cap = true := by
  suffices h : (flush n s).rxBuf.inside cap = true ∧ (flush n s).rxLen ≤ cap from h.1
  refine flush_induct (fun t => t.rxBuf.inside cap = true ∧ t.rxLen ≤ cap) ?_ n s ⟨hin, hlen⟩
  rintro t ⟨ht, hle⟩ -
  exact ⟨copyDown_inside cap _ _ _ ht (by omega), by rw [discard1_rxLen]; omega⟩

theorem bufferInv_assemble (b : Byte) {now : Nat} {s : State} (h : BufferInv s) (hnow : now < 2 ^ s.cfg.timeW) :
    BufferInv (assemble b now s) := by
  obtain ⟨htime, -, -, -, -, hcfg⟩ := assemble_keeps b now s h.canonical
  obtain ⟨hcanonical, -⟩ := evalLoop_keeps now (received b now s).rxLen _ (received_wf b now s h.canonical)
  have hlen := received_rxLen_le b now s
  have hbelow := h.lenBelow
  have hwrite : (received b now s).rxBuf.inside s.cfg.rxCap = true := by
    rw [received_eq]
    exact Memory.inside_write _ _ _ _ h.inside h.lenBelow
  have hinside := evalLoop_inside now (received b now s).rxLen s.cfg.rxCap hwrite (by omega)
  have hbuf : (assemble b now s).rxBuf = (eval now (received b now s)).rxBuf := by rw [assemble_eq, overflowTest_eq]
  refine ⟨hbuf ▸ hcanonical, ?_, ?_, stable_assemble b now s, by rw [htime, hcfg]; exact hnow⟩
  · rw [hbuf, hcfg]
    exact hinside
  · rw [hcfg]
    exact assemble_rxLen_lt_of_lt b now hbelow

/-! The operations. -/

theorem inv_feed {b : Byte} {now : Nat} {s t : State} (h : Inv s) (hnow : now < 2 ^ s.cfg.timeW)
    (hexec : exec (.feed b now) s = .next t) : Inv t := by
  obtain ⟨hwf, hbuffer, hrecords⟩ := (inv_iff s).mp h
  obtain ⟨hcfg, hrecords'⟩ := (keptByReceive_records hwf hnow).exec_feed ⟨rfl, hrecords⟩ hexec
  refine (inv_iff t).mpr ⟨hcfg ▸ hwf, ?_, hrecords'⟩
  obtain ⟨-, rfl⟩ | ⟨-, -, rfl⟩ := exec_feed_cases hexec
  · exact ⟨hbuffer.canonical, hbuffer.inside, hbuffer.lenBelow, hbuffer.stable, hbuffer.rxTime⟩
  · exact bufferInv_assemble b hbuffer hnow

theorem inv_poll {now : Nat} {s t : State} (h : Inv s) (hexec : exec (.poll now) s = .next t) : Inv t := by
  have hidle : Inv (idleFlush now s) := by
    unfold idleFlush
    split
    · obtain ⟨m, hm, -, hflush⟩ := flush_spec s.rxLen s h.bufCanonical le_rfl
      have hin := flush_inside s.rxLen s.cfg.rxCap h.bufInside h.lenBelow.le
      rw [hflush] at hin ⊢
      exact (h.withEmptyBuffer hm hin).withPorts _ _ _ _ _ _
    · exact h
  rw [exec_poll_cases hexec, linkCheck_eq]
  exact hidle.withPorts _ _ _ _ _ _

theorem inv_reset {s t : State} (h : Inv s) (hexec : exec .reset s = .next t) : Inv t := by
  rw [exec_reset] at hexec
  cases hexec
  refine ⟨h.cfgWf, h.bufCanonical, h.bufInside, Nat.zero_lt_of_lt h.lenBelow, .inl Nat.zero_lt_two, h.rxTime, h.chTime,
    nofun, nofun, nofun, nofun, fun x r hr => ?_⟩
  rw [clearRecords_sens, PerSensor_get_all] at hr
  cases hr

/-- Every well-formed host command keeps the invariant. -/
theorem inv_exec {i : Instr} {s t : State} (h : Inv s) (hcmd : i.isCommand = true) (hi : i.wf s.cfg = true)
    (hexec : exec i s = .next t) : Inv t := by
  cases i with
  | reset => exact inv_reset h hexec
  | feed b now => exact inv_feed h (of_decide_eq_true hi) hexec
  | poll now => exact inv_poll h hexec
  | send addr type p =>
    rw [exec_send, sendFrame_spec] at hexec
    cases hexec
    split <;> exact h.withPorts _ _ _ _ _ _
  | ptSet v =>
    rw [ptSetResult v s] at hexec
    cases hexec
    exact h.withPorts _ _ _ _ _ _
  | _ => cases hcmd

/-- What the host port presents is a well-formed host command: its times have `TIME_W` bits. -/
theorem wf_of_nextOp {s : State} {i : Instr} (h : nextOp s = some (.ok i)) : i.wf s.cfg = true ∧ i.isCommand = true := by
  unfold nextOp at h
  split at h
  · cases h
  · exact (encodeDecodeCommand s.cfg _ i (Option.some.inj h)).2

/-- Settles O50: the step holds the state, or issues a well-formed command and runs it. -/
theorem stepKeepsInvariant : Obligations.StepKeepsInvariant := by
  intro s t h hstep
  obtain ⟨-, hrefused⟩ | ⟨-, -, hidle⟩ | ⟨-, e, -, hrefused⟩ | ⟨-, i, hop, hexec⟩ := step_cases s
  · rw [hrefused] at hstep
    cases hstep
  · rw [hidle] at hstep
    cases hstep
    exact h
  · rw [hrefused] at hstep
    cases hstep
  · obtain ⟨hi, hcmd⟩ := wf_of_nextOp hop
    exact inv_exec (s := issue s) (h.withPorts _ _ _ _ _ _) hcmd hi (hexec ▸ hstep)

/-- Settles O51: nothing buffered, no record, times 0, the reference configuration. -/
theorem resetMeetsInvariant : Obligations.ResetMeetsInvariant where
  cfgWf := by decide
  bufCanonical := rfl
  bufInside := rfl
  lenBelow := by decide
  stable := .inl Nat.zero_lt_two
  rxTime := by decide
  chTime := by decide
  ls := nofun
  gps := nofun
  bat := nofun
  att := nofun
  sens x r h := by
    have hnone : State.reset.sens.get x = none := PerSensor_get_all none x
    rw [hnone] at h
    cases h

end Sys2Proof.Machine
end

section
/-! Updates that an operation does not see: an update of fields that none of its steps reads or writes can be made before or
after it. The decoders do not see the buffer (so a frame can be dispatched from any buffer, R198), the receive side does not
see the passthrough flag behind its gate (R205) nor the send ports (R199). -/

namespace Sys2Proof.Machine

/-- `f` commutes with every write of a decoder and leaves what a decoder reads. -/
structure UnseenByDecoders (f : State → State) : Prop where
  cfg : ∀ s, (f s).cfg = s.cfg
  linkUp : ∀ s, (f s).linkUp = s.linkUp
  emit : ∀ e s, emit e (f s) = f (emit e s)
  stampCh : ∀ now s, stampCh now (f s) = f (stampCh now s)
  setLinkUp : ∀ v s, setLinkUp v (f s) = f (setLinkUp v s)
  setChRaw : ∀ v s, setChRaw v (f s) = f (setChRaw v s)
  setLs : ∀ r s, setLs r (f s) = f (setLs r s)
  setGps : ∀ r s, setGps r (f s) = f (setGps r s)
  setBat : ∀ r s, setBat r (f s) = f (setBat r s)
  setAtt : ∀ r s, setAtt r (f s) = f (setAtt r s)
  setSens : ∀ x r s, setSens x r (f s) = f (setSens x r s)

/-- `f` also commutes with every write of the receive side and leaves what the receive side reads. -/
structure UnseenByReceive (f : State → State) : Prop extends UnseenByDecoders f where
  rxBuf : ∀ s, (f s).rxBuf = s.rxBuf
  rxLen : ∀ s, (f s).rxLen = s.rxLen
  lastRxTime : ∀ s, (f s).lastRxTime = s.lastRxTime
  lastChTime : ∀ s, (f s).lastChTime = s.lastChTime
  append : ∀ b s, append b (f s) = f (append b s)
  shift : ∀ n s, shift n (f s) = f (shift n s)
  stampRx : ∀ now s, stampRx now (f s) = f (stampRx now s)
  bulkReset : ∀ s, bulkReset (f s) = f (bulkReset s)

/-! The updates. -/

theorem unseen_buffer (m : Memory) (l x : Nat) :
    UnseenByDecoders fun s => { s with rxBuf := m, rxLen := l, lastRxTime := x } where
  cfg _ := rfl
  linkUp _ := rfl
  emit _ _ := rfl
  stampCh _ _ := rfl
  setLinkUp _ _ := rfl
  setChRaw _ _ := rfl
  setLs _ _ := rfl
  setGps _ _ := rfl
  setBat _ _ := rfl
  setAtt _ _ := rfl
  setSens _ _ _ := rfl

/-- The passthrough flag and the send ports, rewritten each by a function of its own value. -/
def mapSendSide (pt : Bool → Bool) (tx : List Byte → List Byte) (acc : Option Bool → Option Bool) (s : State) : State :=
  { s with passthrough := pt s.passthrough, tx := tx s.tx, accepted := acc s.accepted }

theorem unseen_sendSide (pt : Bool → Bool) (tx : List Byte → List Byte) (acc : Option Bool → Option Bool) :
    UnseenByReceive (mapSendSide pt tx acc) where
  cfg _ := rfl
  linkUp _ := rfl
  emit _ _ := rfl
  stampCh _ _ := rfl
  setLinkUp _ _ := rfl
  setChRaw _ _ := rfl
  setLs _ _ := rfl
  setGps _ _ := rfl
  setBat _ _ := rfl
  setAtt _ _ := rfl
  setSens _ _ _ := rfl
  rxBuf _ := rfl
  rxLen _ := rfl
  lastRxTime _ := rfl
  lastChTime _ := rfl
  append _ _ := rfl
  shift _ _ := rfl
  stampRx _ _ := rfl
  bulkReset _ := rfl

/-! The decoders. -/

namespace UnseenByDecoders

variable {f : State → State}

theorem linkBeat (h : UnseenByDecoders f) (now : Nat) (s : State) :
    Machine.linkBeat now (f s) = f (Machine.linkBeat now s) := by
  unfold Machine.linkBeat
  rw [h.linkUp]
  split
  · rw [h.stampCh]
  · rw [h.stampCh, h.setLinkUp, h.emit]

theorem decodeCh (h : UnseenByDecoders f) (p : List Byte) (now : Nat) (s : State) :
    Machine.decodeCh p now (f s) = f (Machine.decodeCh p now s) := by
  rcases Nat.lt_or_ge p.length chPayload with hshort | hlen
  · rw [decodeCh_of_short now _ hshort, decodeCh_of_short now _ hshort]
  · rw [decodeCh_of_complete now _ hlen, decodeCh_of_complete now _ hlen, h.setChRaw, h.linkBeat, h.emit]

theorem decodeParam (h : UnseenByDecoders f) (x : SensorId) (p : List Byte) (s : State) :
    Machine.decodeParam x p (f s) = f (Machine.decodeParam x p s) := by
  cases hd : s.cfg.sensorLayout.get x with
  | none => rw [decodeParam_of_none p hd, decodeParam_of_none p (by rw [h.cfg, hd])]
  | some d =>
    have hd' : (f s).cfg.sensorLayout.get x = some d := by rw [h.cfg, hd]
    rcases Nat.lt_or_ge p.length d.size with hshort | hlen
    · rw [decodeParam_of_short hd hshort, decodeParam_of_short hd' hshort]
    · rw [decodeParam_of_complete hd hlen, decodeParam_of_complete hd' hlen, h.setSens, h.emit]

/-- A selected operation does not see `f`. -/
theorem runFrame (h : UnseenByDecoders f) (i : Instr) (s : State) :
    Machine.runFrame i (f s) = f (Machine.runFrame i s) := by
  cases i with
  | decCh p now => exact h.decodeCh p now s
  | decLs p =>
    rcases Nat.lt_or_ge p.length 10 with hshort | hlen
    · exact (decodeLs_of_short _ hshort).trans (congrArg f (decodeLs_of_short s hshort).symm)
    · refine (decodeLs_of_complete _ hlen).trans (.trans ?_ (congrArg f (decodeLs_of_complete s hlen).symm))
      rw [h.setLs, h.emit]
  | decGps p =>
    rcases Nat.lt_or_ge p.length 15 with hshort | hlen
    · exact (decodeGps_of_short _ hshort).trans (congrArg f (decodeGps_of_short s hshort).symm)
    · refine (decodeGps_of_complete _ hlen).trans (.trans ?_ (congrArg f (decodeGps_of_complete s hlen).symm))
      rw [h.setGps, h.emit]
  | decBat p =>
    rcases Nat.lt_or_ge p.length 8 with hshort | hlen
    · exact (decodeBat_of_short _ hshort).trans (congrArg f (decodeBat_of_short s hshort).symm)
    · refine (decodeBat_of_complete _ hlen).trans (.trans ?_ (congrArg f (decodeBat_of_complete s hlen).symm))
      rw [h.setBat, h.emit]
  | decAtt p =>
    rcases Nat.lt_or_ge p.length 6 with hshort | hlen
    · exact (decodeAtt_of_short _ hshort).trans (congrArg f (decodeAtt_of_short s hshort).symm)
    · refine (decodeAtt_of_complete _ hlen).trans (.trans ?_ (congrArg f (decodeAtt_of_complete s hlen).symm))
      rw [h.setAtt, h.emit]
  | decParamVario p => exact h.decodeParam .vario p s
  | decParamBaro p => exact h.decodeParam .baro p s
  | decParamAirspeed p => exact h.decodeParam .airspeed p s
  | decParamRpm p => exact h.decodeParam .rpm p s
  | decParamTemp p => exact h.decodeParam .temp p s
  | decParamCells p => exact h.decodeParam .cells p s
  | decUnk t p => rfl
  | reset => rfl
  | feed b now => rfl
  | poll now => rfl
  | send a t p => rfl
  | ptSet v => rfl

end UnseenByDecoders

/-! The receive side. -/

namespace UnseenByReceive

variable {f : State → State}

theorem rxByte (h : UnseenByReceive f) (s : State) (k : Nat) : Machine.rxByte (f s) k = Machine.rxByte s k := by
  rw [Machine.rxByte, h.rxBuf]
  rfl

theorem frontLength (h : UnseenByReceive f) (s : State) : Machine.frontLength (f s) = Machine.frontLength s := by
  rw [Machine.frontLength, h.rxByte]
  rfl

theorem discard1 (h : UnseenByReceive f) (s : State) : Machine.discard1 (f s) = f (Machine.discard1 s) := by
  rw [Machine.discard1, h.rxByte, h.shift, h.emit]
  rfl

theorem dispatch (h : UnseenByReceive f) (now : Nat) (s : State) :
    Machine.dispatch now (f s) = f (Machine.dispatch now s) := by
  have hfilter : filteredOut (f s) = filteredOut s := by
    rw [filteredOut, h.cfg, h.rxByte]
    rfl
  have hinstr : frontInstr now (f s) = frontInstr now s := by
    rw [frontInstr, h.cfg, h.rxByte, h.rxBuf, h.frontLength]
    rfl
  unfold Machine.dispatch
  rw [hfilter, hinstr, h.runFrame, apply_ite f]

theorem consumeFrame (h : UnseenByReceive f) (now : Nat) (s : State) :
    Machine.consumeFrame now (f s) = f (Machine.consumeFrame now s) := by
  rw [Machine.consumeFrame, h.frontLength, h.dispatch, h.shift]
  rfl

theorem evalStep (h : UnseenByReceive f) (now : Nat) (s : State) :
    Machine.evalStep now (f s) = (Machine.evalStep now s).map f := by
  have hcrc : frontCrcOk (f s) = frontCrcOk s := by
    rw [frontCrcOk, h.rxBuf, h.frontLength, h.rxByte]
    rfl
  unfold Machine.evalStep
  rw [h.rxLen, h.cfg, h.frontLength, hcrc, h.discard1, h.consumeFrame]
  iterate 4 rw [apply_ite (Option.map f)]
  rfl

theorem evalLoop (h : UnseenByReceive f) (now fuel : Nat) (s : State) :
    Machine.evalLoop now fuel (f s) = f (Machine.evalLoop now fuel s) := by
  induction fuel generalizing s with
  | zero => rfl
  | succ fuel ih =>
    rw [evalLoop_succ, evalLoop_succ, h.evalStep]
    cases Machine.evalStep now s with
    | none => rfl
    | some t => exact ih t

theorem overflowTest (h : UnseenByReceive f) (place : OverflowCheck) (s : State) :
    Machine.overflowTest place (f s) = f (Machine.overflowTest place s) := by
  unfold Machine.overflowTest
  rw [h.cfg, h.rxLen, h.bulkReset, apply_ite f]

theorem assemble (h : UnseenByReceive f) (b : Byte) (now : Nat) (s : State) :
    Machine.assemble b now (f s) = f (Machine.assemble b now s) := by
  unfold Machine.assemble eval
  rw [h.stampRx, h.append, h.overflowTest, h.rxLen, h.evalLoop, h.overflowTest]

theorem flush (h : UnseenByReceive f) (n : Nat) (s : State) : Machine.flush n (f s) = f (Machine.flush n s) := by
  induction n generalizing s with
  | zero => rfl
  | succ n ih =>
    rw [Machine.flush, Machine.flush, h.rxLen, h.discard1, ih, apply_ite f]

theorem idleExpired (h : UnseenByReceive f) (now : Nat) (s : State) :
    Machine.idleExpired now (f s) = Machine.idleExpired now s := by
  rw [Machine.idleExpired, h.rxLen, h.cfg, h.lastRxTime]
  rfl

theorem idleFlush (h : UnseenByReceive f) (now : Nat) (s : State) :
    Machine.idleFlush now (f s) = f (Machine.idleFlush now s) := by
  unfold Machine.idleFlush
  rw [h.idleExpired, h.rxLen, h.flush, apply_ite f]

theorem linkCheck (h : UnseenByReceive f) (now : Nat) (s : State) :
    Machine.linkCheck now (f s) = f (Machine.linkCheck now s) := by
  have hlate : linkExpired now (f s) = linkExpired now s := by
    rw [linkExpired, h.linkUp, h.cfg, h.lastChTime]
    rfl
  unfold Machine.linkCheck
  rw [hlate, h.setLinkUp, h.emit, apply_ite f]

/-- `POLL` does not see `f`. -/
theorem exec_poll (h : UnseenByReceive f) {now : Nat} {s t : State} (hexec : exec (.poll now) s = .next t) :
    exec (.poll now) (f s) = .next (f t) := by
  obtain rfl := exec_poll_cases hexec
  change execPoll now s = _ at hexec
  change execPoll now (f s) = _
  unfold execPoll at hexec ⊢
  rw [h.idleExpired, h.cfg, h.rxLen]
  split at hexec
  · cases hexec
  next hinside => rw [if_neg hinside, h.idleFlush, h.linkCheck]

/-- `FEED` sees no more of `f` than the gate does. -/
theorem exec_feed (h : UnseenByReceive f) {b : Byte} {now : Nat} {s t : State} (hpt : (f s).passthrough = s.passthrough)
    (hexec : exec (.feed b now) s = .next t) : exec (.feed b now) (f s) = .next (f t) := by
  obtain ⟨hshut, rfl⟩ | ⟨hopen, hlt, rfl⟩ := exec_feed_cases hexec
  · rw [exec_feed_passthrough b now (hpt.trans hshut), h.emit]
  · rw [exec_feed_assembles b now _ (hpt.trans hopen) (by rw [h.rxLen, h.cfg]; exact hlt), h.assemble]

end UnseenByReceive

/-- Settles O28: `POLL` does not see the passthrough flag. -/
theorem pollIgnoresPassthrough : Obligations.PollIgnoresPassthrough :=
  fun v _ _ _ hexec => (unseen_sendSide (fun _ => v) id id).exec_poll hexec

/-- `SEND` writes the send ports only (R190). -/
theorem eq_mapSendSide_of_exec_send {addr type : Byte} {p : List Byte} {s u : State}
    (h : exec (.send addr type p) s = .next u) : u = mapSendSide id (fun _ => u.tx) (fun _ => u.accepted) s := by
  rw [exec_send, sendFrame_spec] at h
  cases h
  split <;> rfl

/-- Settles O48: the receive side does not see the send ports. -/
theorem sendDoesNotDisturbReceive : Obligations.SendDoesNotDisturbReceive := by
  intro addr type P i s u t hi hsend hexec
  rw [eq_mapSendSide_of_exec_send hsend]
  have hunseen := unseen_sendSide id (fun _ => u.tx) (fun _ => u.accepted)
  obtain ⟨b, now, rfl⟩ | ⟨now, rfl⟩ := hi
  · exact hunseen.exec_feed rfl hexec
  · exact hunseen.exec_poll hexec

end Sys2Proof.Machine
end

section
/-! Loopback (R198): the bytes of an accepted `SEND`, fed to an empty core, wait in its buffer until the last one, which
completes a valid candidate; its dispatch is the selected operation, run from a state that differs in the buffer only. -/

namespace Sys2Proof.Machine

/-- What R198 asks of a payload: legal to receive, its length in one byte, and room for its frame below the overflow. -/
structure Deliverable (c : Config) (p : List Byte) : Prop where
  pos : 1 ≤ p.length
  max : p.length + 2 ≤ c.maxFrameSize
  lengthByte : (BitVec.ofNat 8 (p.length + 2)).toNat = p.length + 2
  room : p.length + 4 < c.rxCap

/-- `r` with these bytes buffered, whatever the last time stamp. -/
structure Holding (r : State) (bytes : List Byte) (s : State) : Prop where
  eq : s = { r with rxBuf := s.rxBuf, rxLen := bytes.length, lastRxTime := s.lastRxTime }
  canonical : s.rxBuf.wf = true
  bytes : buffered s = bytes

theorem Holding.rxLen {r s : State} {bytes : List Byte} (h : Holding r bytes s) : s.rxLen = bytes.length := by
  rw [← h.bytes, buffered_length]

theorem Holding.cfg {r s : State} {bytes : List Byte} (h : Holding r bytes s) : s.cfg = r.cfg := by rw [h.eq]

theorem Holding.passthrough {r s : State} {bytes : List Byte} (h : Holding r bytes s) : s.passthrough = r.passthrough := by
  rw [h.eq]

theorem Holding.of_empty {r : State} (hw : r.rxBuf.wf = true) (hlen : r.rxLen = 0) : Holding r [] r :=
  ⟨by rw [List.length_nil, ← hlen], hw, List.eq_nil_of_length_eq_zero (by rw [buffered_length, hlen])⟩

theorem Holding.append {r s : State} {bytes : List Byte} (h : Holding r bytes s) (b : Byte) (now : Nat) :
    Holding r (bytes ++ [b]) (append b (stampRx now s)) where
  eq := by
    rw [List.length_append, ← h.rxLen, h.eq]
    rfl
  canonical := Memory.wf_write _ _ _ h.canonical
  bytes := by
    rw [buffered_append b (stampRx now s) h.canonical]
    exact congrArg (· ++ [b]) h.bytes

/-- The fields of the frame at the front of the buffer (R70, R194). -/
theorem candidate_of_holding {r s : State} {addr type : Byte} {p : List Byte} (h : Holding r (buildFrame addr type p) s) :
    rxByte s 0 = addr ∧ rxByte s 1 = BitVec.ofNat 8 (p.length + 2) ∧ rxByte s 2 = type ∧
    memRead s.rxBuf 3 p.length = p ∧ rxByte s (p.length + 3) = crc8 (type :: p) := by
  have hlen : s.rxLen = p.length + 2 + 2 := by
    rw [h.rxLen, buildFrame_eq]
    simp
  have hbuf := h.bytes
  rw [buffered, hlen, memRead_candidate _ _ (by omega), Nat.add_sub_cancel] at hbuf
  simpa [buildFrame_eq, rxByte] using hbuf

/-- Part of a frame is a stable state (R115): the length byte, once there, asks for more. -/
theorem Holding.stable {r s : State} {bytes rest : List Byte} {addr type : Byte} {p : List Byte} (h : Holding r bytes s)
    (hpart : bytes ++ rest = buildFrame addr type p) (hrest : rest ≠ []) (hp : Deliverable r.cfg p) : Stable s := by
  have hlen := h.rxLen
  have hpos := hp.pos
  have hmax := hp.max
  rcases Nat.lt_or_ge s.rxLen 2 with hshort | hlong
  · exact .inl hshort
  · have htotal : bytes.length + rest.length = p.length + 4 := by
      rw [← List.length_append, hpart, buildFrame_eq]
      simp
    have hleft := List.length_pos_of_ne_nil hrest
    have hsecond : (buildFrame addr type p)[1]? = some (BitVec.ofNat 8 (p.length + 2)) := rfl
    have hfront : frontLength s = p.length + 2 := by
      rw [← hpart, List.getElem?_append_left (by omega), List.getElem?_eq_getElem (by omega)] at hsecond
      have hone := rxByte_eq_buffered s 1 (by omega)
      simp only [h.bytes] at hone
      rw [frontLength, hone, Option.some.inj hsecond, hp.lengthByte]
    rw [Stable, hfront, h.cfg]
    omega

/-- A byte that does not complete the frame only joins the buffer. -/
theorem exec_feed_of_part {r s : State} {bytes rest : List Byte} {b addr type : Byte} {p : List Byte} (now : Nat)
    (h : Holding r bytes s) (hpart : bytes ++ [b] ++ rest = buildFrame addr type p) (hrest : rest ≠ [])
    (hp : Deliverable r.cfg p) (hpt : r.passthrough = false) : exec (.feed b now) s = .next (append b (stampRx now s)) := by
  have hlen : bytes.length + 1 + rest.length = p.length + 4 := by
    have htotal := congrArg List.length hpart
    simp only [buildFrame_eq, List.length_append, List.length_cons, List.length_nil] at htotal
    omega
  have hbelow : s.rxLen + 1 < s.cfg.rxCap := by
    have hroom := hp.room
    rw [h.rxLen, h.cfg]
    omega
  have hstable := (h.append b now).stable hpart hrest hp
  rw [exec_feed_assembles b now s (h.passthrough.trans hpt) (by omega), assemble_of_stable hbelow.ne hstable]

theorem runOps_append {as bs : List Instr} {s t : State} (h : runOps as s = .next t) :
    runOps (as ++ bs) s = runOps bs t := by
  induction as generalizing s with
  | nil => cases h; rfl
  | cons i as ih =>
    obtain ⟨u, hexec, hrest⟩ := exists_exec_of_runOps h
    rw [List.cons_append, runOps_cons hexec, ih hrest]

/-- All bytes but the last are buffered one after another. -/
theorem runOps_feedEach_of_part {r s : State} {held bytes rest : List Byte} {times : List Nat} {addr type : Byte}
    {p : List Byte} (hlen : times.length = bytes.length) (h : Holding r held s)
    (hpart : held ++ bytes ++ rest = buildFrame addr type p) (hrest : rest ≠ []) (hp : Deliverable r.cfg p)
    (hpt : r.passthrough = false) :
    ∃ t, runOps (feedEach bytes times) s = .next t ∧ Holding r (held ++ bytes) t := by
  induction bytes generalizing held s times with
  | nil => exact ⟨s, rfl, by rwa [List.append_nil]⟩
  | cons b bytes ih =>
    obtain ⟨now, times, rfl⟩ := List.exists_cons_of_length_eq_add_one hlen
    rw [List.append_cons, List.append_assoc (held ++ [b])] at hpart
    have hexec := exec_feed_of_part now h hpart (List.append_ne_nil_of_right_ne_nil _ hrest) hp hpt
    rw [← List.append_assoc] at hpart
    obtain ⟨t, hrun, ht⟩ := ih (Nat.succ.inj hlen) (h.append b now) hpart
    exact ⟨t, (runOps_cons hexec).trans hrun, by rwa [List.append_cons]⟩

/-- The whole frame in the buffer: the loop dispatches it as the operation of its type, run on `r` itself, and leaves
nothing (R116, R117, R120). -/
theorem eval_of_holding_frame {r s : State} {addr type : Byte} {p : List Byte} (now : Nat)
    (h : Holding r (buildFrame addr type p) s) (hp : Deliverable r.cfg p)
    (hfilter : r.cfg.addrFilter = true → addr = r.cfg.ownAddr) :
    ∃ m, eval now s =
      { runFrame (frameInstr r.cfg now type p) r with rxBuf := m, rxLen := 0, lastRxTime := s.lastRxTime } := by
  obtain ⟨haddr, hsize, htype, hpayload, hcrc⟩ := candidate_of_holding h
  have hlen : s.rxLen = p.length + 4 := by
    rw [h.rxLen, buildFrame_eq]
    simp
  have hfront : frontLength s = p.length + 2 := by rw [frontLength, hsize, hp.lengthByte]
  have hpos := hp.pos
  have hok : frontCrcOk s = true := by
    rw [frontCrcOk_iff, memRead_typed _ _ (by omega), hfront, Nat.add_sub_cancel, hpayload]
    exact (congrArg (fun b => crc8 (b :: p)) htype).trans hcrc.symm
  have hinstr : frontInstr now s = frameInstr r.cfg now type p := by
    rw [frontInstr, hfront, Nat.add_sub_cancel, hpayload, h.cfg, htype]
  have hpass : filteredOut s = false := by
    rw [Bool.eq_false_iff, ne_eq, filteredOut_iff, h.cfg, haddr]
    exact fun ⟨hon, hne⟩ => hne (hfilter hon)
  have hstep : evalStep now s = some (consumeFrame now s) := by
    rw [evalStep_of_complete now (by omega) (by rw [h.cfg, hfront]; exact hp.max) (by omega), if_pos hok]
  have hdispatch : dispatch now s =
      { runFrame (frameInstr r.cfg now type p) r with
        rxBuf := s.rxBuf, rxLen := s.rxLen, lastRxTime := s.lastRxTime } := by
    rw [dispatch, hpass, if_neg Bool.false_ne_true, hinstr]
    conv_lhs => rw [h.eq, ← h.rxLen]
    exact (unseen_buffer s.rxBuf s.rxLen s.lastRxTime).runFrame _ r
  have hconsume : consumeFrame now s =
      { runFrame (frameInstr r.cfg now type p) r with
        rxBuf := copyDown s.rxBuf (frontLength s + 2) (s.rxLen - (frontLength s + 2))
        rxLen := s.rxLen - (frontLength s + 2)
        lastRxTime := s.lastRxTime } := by
    rw [consumeFrame, hdispatch, shift]
  have hnone : s.rxLen - (frontLength s + 2) = 0 := by omega
  refine ⟨copyDown s.rxBuf (frontLength s + 2) 0, ?_⟩
  rw [eval_of_evalStep hstep, hconsume, hnone]
  exact eval_of_stable now (.inl Nat.zero_lt_two)

/-- Settles O44: the bytes of the frame but its CRC wait; the CRC completes it. -/
theorem loopbackDelivers : Obligations.LoopbackDelivers := by
  intro s s' r addr type P times last hwf htx hsend hacc hpos hroom hfilter hcfg hlen hpt hw htimes hlast
  have hopen : ¬ sendShut P s = true := by
    intro hshut
    rw [exec_send, sendFrame_of_shut addr type hshut] at hsend
    cases hsend
    cases hacc
  have htx' : s'.tx = buildFrame addr type P := by
    rw [exec_send, sendFrame_of_open addr type hopen] at hsend
    cases hsend
    dsimp only
    rw [htx, List.nil_append]
  have hp : Deliverable r.cfg P := by
    obtain ⟨-, hmaxFrame⟩ := maxFrameSize_of_wf hwf
    have hbyte := toNat_lengthByte_of_open hopen (by omega)
    rw [sendShut_iff] at hopen
    rw [hcfg]
    exact ⟨hpos, by omega, hbyte, by omega⟩
  obtain ⟨ts, rfl⟩ : ∃ ts, times = ts ++ [last] := List.getLast?_eq_some_iff.mp hlast
  have hts : ts.length = ([addr, BitVec.ofNat 8 (P.length + 2), type] ++ P).length := by
    have htotal := htimes
    rw [htx', buildFrame_eq, List.length_append, List.length_append] at htotal
    exact Nat.succ.inj htotal
  obtain ⟨w, hrun, hheld⟩ := runOps_feedEach_of_part hts (Holding.of_empty hw hlen) (buildFrame_eq addr type P).symm
    (List.cons_ne_nil _ _) hp hpt
  rw [List.nil_append] at hheld
  have hfull := hheld.append (crc8 (type :: P)) last
  rw [← buildFrame_eq] at hfull
  obtain ⟨m, heval⟩ := eval_of_holding_frame last hfull hp (hcfg ▸ hfilter)
  have hbelow : w.rxLen + 1 < w.cfg.rxCap := by
    rw [hheld.rxLen, hheld.cfg, List.length_append]
    exact (show 3 + P.length + 1 = P.length + 4 by omega) ▸ hp.room
  have hlastFeed : exec (.feed (crc8 (type :: P)) last) w = .next
      { runFrame (frameInstr r.cfg last type P) r with rxBuf := m, rxLen := 0, lastRxTime := last } := by
    rw [exec_feed_assembles _ last w (hheld.passthrough.trans hpt) (by omega), assemble_of_room _ last hbelow, heval]
    rfl
  refine ⟨{ runFrame (frameInstr r.cfg last type P) r with rxBuf := m, rxLen := 0, lastRxTime := last }, _, ?_,
    exec_frame _ r (frameInstr_isCommand ..), rfl⟩
  have hsplit : feedEach s'.tx (ts ++ [last]) =
      feedEach ([addr, BitVec.ofNat 8 (P.length + 2), type] ++ P) ts ++ [.feed (crc8 (type :: P)) last] := by
    rw [htx', buildFrame_eq]
    exact List.zipWith_append hts.symm
  rw [hsplit, runOps_append hrun, runOps_cons hlastFeed]
  rfl

end Sys2Proof.Machine
end

section
/-! What the host cannot observe (R241): two canonical states that agree but for the unspecified registers stay so under every
operation, step by step. -/

namespace Sys2Proof.Machine

/-! Writes that both states make. -/

namespace ObsEq

variable {s t : State}

theorem emit (h : ObsEq s t) (e : Event) : ObsEq (Machine.emit e s) (Machine.emit e t) :=
  { h with events := congrArg (· ++ [e]) h.events }

theorem setChRaw (h : ObsEq s t) (v : ChannelSet) : ObsEq (Machine.setChRaw v s) (Machine.setChRaw v t) :=
  { h with chRaw := rfl }

theorem setLs (h : ObsEq s t) (r : LinkStats) : ObsEq (Machine.setLs r s) (Machine.setLs r t) := { h with ls := rfl }

theorem setGps (h : ObsEq s t) (r : Gps) : ObsEq (Machine.setGps r s) (Machine.setGps r t) := { h with gps := rfl }

theorem setBat (h : ObsEq s t) (r : Battery) : ObsEq (Machine.setBat r s) (Machine.setBat r t) := { h with bat := rfl }

theorem setAtt (h : ObsEq s t) (r : Attitude) : ObsEq (Machine.setAtt r s) (Machine.setAtt r t) := { h with att := rfl }

theorem setSens (h : ObsEq s t) (x : SensorId) (r : SensorRec) :
    ObsEq (Machine.setSens x r s) (Machine.setSens x r t) :=
  { h with sens := congrArg (·.set x (some r)) h.sens }

/-- A heartbeat writes the timestamp it leaves readable (R181). -/
theorem linkBeat (h : ObsEq s t) (now : Nat) : ObsEq (Machine.linkBeat now s) (Machine.linkBeat now t) := by
  rw [linkBeat_spec, linkBeat_spec]
  exact { h with
    linkUp := rfl
    lastChTime := fun _ => rfl
    events := by dsimp only; rw [h.events, h.linkUp] }

/-- The timestamp of a link that is Down is not read (R183). -/
theorem linkExpired (h : ObsEq s t) (now : Nat) : Machine.linkExpired now s = Machine.linkExpired now t := by
  rw [Machine.linkExpired, Machine.linkExpired, ← h.linkUp, ← h.cfg]
  cases hup : s.linkUp with
  | false => rfl
  | true => rw [h.lastChTime hup]

theorem linkCheck (h : ObsEq s t) (now : Nat) : ObsEq (Machine.linkCheck now s) (Machine.linkCheck now t) := by
  rw [linkCheck_spec, linkCheck_spec, ← h.linkExpired]
  split
  · exact { h with linkUp := rfl, lastChTime := nofun, events := congrArg (· ++ [Event.linkDown]) h.events }
  · exact h

/-- The timestamp of an empty buffer is not read (R121). -/
theorem idleExpired (h : ObsEq s t) (now : Nat) : Machine.idleExpired now s = Machine.idleExpired now t := by
  rw [Machine.idleExpired, Machine.idleExpired, ← h.rxLen, ← h.cfg]
  rcases Nat.eq_zero_or_pos s.rxLen with hempty | hpos
  · rw [hempty]
    rfl
  · rw [h.lastRxTime hpos]

/-- An emptied buffer leaves nothing of the bytes or their time. -/
theorem bulkReset (h : ObsEq s t) : ObsEq (Machine.bulkReset s) (Machine.bulkReset t) :=
  { h with rxLen := rfl, buffered := rfl, lastRxTime := fun hpos => absurd hpos (Nat.lt_irrefl 0) }

/-! Reads of buffered bytes. -/

theorem rxByte (h : ObsEq s t) {k : Nat} (hk : k < s.rxLen) : Machine.rxByte s k = Machine.rxByte t k := by
  rw [rxByte_eq_buffered s k hk, rxByte_eq_buffered t k (h.rxLen ▸ hk)]
  exact List.getElem_of_eq h.buffered _

theorem memRead (h : ObsEq s t) {a n : Nat} (hlen : a + n ≤ s.rxLen) :
    Machine.memRead s.rxBuf a n = Machine.memRead t.rxBuf a n :=
  memRead_congr _ _ _ _ _ fun i hi => h.rxByte (k := a + i) (by omega)

theorem frontLength (h : ObsEq s t) (h2 : 2 ≤ s.rxLen) : Machine.frontLength s = Machine.frontLength t :=
  congrArg BitVec.toNat (h.rxByte h2)

/-! A frame (R120). -/

theorem decodeCh (h : ObsEq s t) (p : List Byte) (now : Nat) :
    ObsEq (Machine.decodeCh p now s) (Machine.decodeCh p now t) := by
  rcases Nat.lt_or_ge p.length chPayload with hshort | hlen
  · rwa [decodeCh_of_short now s hshort, decodeCh_of_short now t hshort]
  · rw [decodeCh_of_complete now s hlen, decodeCh_of_complete now t hlen]
    exact ((h.setChRaw _).linkBeat now).emit _

theorem decodeParam (h : ObsEq s t) (x : SensorId) (p : List Byte) :
    ObsEq (Machine.decodeParam x p s) (Machine.decodeParam x p t) := by
  cases hd : s.cfg.sensorLayout.get x with
  | none => rwa [decodeParam_of_none p hd, decodeParam_of_none p (h.cfg ▸ hd)]
  | some d =>
    rcases Nat.lt_or_ge p.length d.size with hshort | hlen
    · rwa [decodeParam_of_short hd hshort, decodeParam_of_short (h.cfg ▸ hd) hshort]
    · rw [decodeParam_of_complete hd hlen, decodeParam_of_complete (h.cfg ▸ hd) hlen]
      exact (h.setSens x _).emit _

/-- A test that does not read the state decides alike for both. -/
theorem ite_of {c : Prop} [Decidable c] {s' t' : State} (h : ObsEq s t) (h' : ObsEq s' t') :
    ObsEq (if c then s else s') (if c then t else t') := by
  split
  · exact h
  · exact h'

theorem runFrame (h : ObsEq s t) (i : Instr) : ObsEq (Machine.runFrame i s) (Machine.runFrame i t) := by
  cases i with
  | decCh p now => exact h.decodeCh p now
  | decLs p => exact h.ite_of ((h.setLs _).emit _)
  | decGps p => exact h.ite_of ((h.setGps _).emit _)
  | decBat p => exact h.ite_of ((h.setBat _).emit _)
  | decAtt p => exact h.ite_of ((h.setAtt _).emit _)
  | decParamVario p => exact h.decodeParam .vario p
  | decParamBaro p => exact h.decodeParam .baro p
  | decParamAirspeed p => exact h.decodeParam .airspeed p
  | decParamRpm p => exact h.decodeParam .rpm p
  | decParamTemp p => exact h.decodeParam .temp p
  | decParamCells p => exact h.decodeParam .cells p
  | decUnk t p => exact h
  | reset => exact h
  | feed b now => exact h
  | poll now => exact h
  | send a t p => exact h
  | ptSet v => exact h

/-- A complete candidate selects and filters alike in both buffers. -/
theorem dispatch (h : ObsEq s t) (now : Nat) (h3 : 3 ≤ Machine.frontLength s)
    (hlen : Machine.frontLength s + 2 ≤ s.rxLen) : ObsEq (Machine.dispatch now s) (Machine.dispatch now t) := by
  have hinstr : frontInstr now s = frontInstr now t := by
    rw [frontInstr, frontInstr, ← h.cfg, ← h.frontLength (by omega), h.rxByte (k := 2) (by omega), h.memRead (by omega)]
  have hfilter : filteredOut s = filteredOut t := by
    rw [filteredOut, filteredOut, ← h.cfg, h.rxByte (k := 0) (by omega)]
  rw [Machine.dispatch, Machine.dispatch, hinstr, hfilter]
  exact h.ite_of (h.runFrame _)

end ObsEq

/-! The receive side. -/

/-- Agreement of two states in canonical form, which `APPEND` and `SHIFT` need to be what R51 and R52 say. -/
structure Twins (s t : State) : Prop where
  obs : ObsEq s t
  left : s.rxBuf.wf = true
  right : t.rxBuf.wf = true

namespace Twins

variable {s t : State}

theorem discard1 (h : Twins s t) (hpos : 0 < s.rxLen) : Twins (Machine.discard1 s) (Machine.discard1 t) where
  obs := { h.obs with
    rxLen := congrArg (· - 1) h.obs.rxLen
    buffered := by rw [buffered_discard1 s h.left, buffered_discard1 t h.right, h.obs.buffered]
    lastRxTime := fun _ => h.obs.lastRxTime hpos
    events := by rw [discard1_events, discard1_events, h.obs.events, h.obs.rxByte hpos] }
  left := (copyDown_spec _ _ _ h.left).1
  right := (copyDown_spec _ _ _ h.right).1

theorem consumeFrame (h : Twins s t) (now : Nat) (h3 : 3 ≤ frontLength s) (hlen : frontLength s + 2 ≤ s.rxLen) :
    Twins (Machine.consumeFrame now s) (Machine.consumeFrame now t) := by
  have hfront := h.obs.frontLength (by omega)
  have hdispatch := h.obs.dispatch now h3 hlen
  obtain ⟨hbufS, -⟩ := consumeFrame_keeps now s
  obtain ⟨hbufT, -⟩ := consumeFrame_keeps now t
  obtain ⟨hcopyS, -⟩ := copyDown_spec s.rxBuf (frontLength s + 2) (s.rxLen - (frontLength s + 2)) h.left
  obtain ⟨hcopyT, -⟩ := copyDown_spec t.rxBuf (frontLength t + 2) (t.rxLen - (frontLength t + 2)) h.right
  refine ⟨{ hdispatch with rxLen := ?_, buffered := ?_, lastRxTime := fun _ => ?_ }, hbufS ▸ hcopyS, hbufT ▸ hcopyT⟩
  · rw [Machine.consumeFrame, Machine.consumeFrame, shift_rxLen, shift_rxLen, hdispatch.rxLen, hfront]
  · rw [buffered_consumeFrame now s h.left, buffered_consumeFrame now t h.right, h.obs.buffered, hfront]
  · exact hdispatch.lastRxTime (by rw [(dispatch_keepsBuffer now s).rxLen]; omega)

/-- Both loops wait, or both go on from states that agree (R113). -/
theorem evalStep (h : Twins s t) (now : Nat) :
    (Machine.evalStep now s = none ∧ Machine.evalStep now t = none) ∨
    ∃ s' t', Machine.evalStep now s = some s' ∧ Machine.evalStep now t = some t' ∧ Twins s' t' := by
  have hlen := h.obs.rxLen
  have hcfg := h.obs.cfg
  have hnone {u : State} (hu : Stable u) : Machine.evalStep now u = none := (evalStep_eq_none_iff now u).mpr hu
  rcases Nat.lt_or_ge s.rxLen 2 with hshort | h2
  · exact .inl ⟨hnone (.inl hshort), hnone (.inl (hlen ▸ hshort))⟩
  have hfront := h.obs.frontLength h2
  by_cases hbad : frontLength s < 3 ∨ s.cfg.maxFrameSize < frontLength s
  · exact .inr ⟨_, _, evalStep_of_implausible now h2 hbad,
      evalStep_of_implausible now (hlen ▸ h2) (hcfg ▸ hfront ▸ hbad), h.discard1 (by omega)⟩
  have h3 : 3 ≤ frontLength s := by omega
  have hmax : frontLength s ≤ s.cfg.maxFrameSize := by omega
  rcases Nat.lt_or_ge s.rxLen (frontLength s + 2) with hwait | hall
  · exact .inl ⟨hnone (.inr ⟨h3, hmax, hwait⟩), hnone (.inr ⟨hfront ▸ h3, hcfg ▸ hfront ▸ hmax, by omega⟩)⟩
  · have hcrc : frontCrcOk s = frontCrcOk t := by
      rw [frontCrcOk, frontCrcOk, ← hfront, h.obs.memRead (by omega), h.obs.rxByte (by omega)]
    rw [evalStep_of_complete now h3 hmax hall,
      evalStep_of_complete now (hfront ▸ h3) (hcfg ▸ hfront ▸ hmax) (by omega), ← hcrc]
    split
    · exact .inr ⟨_, _, rfl, rfl, h.consumeFrame now h3 hall⟩
    · exact .inr ⟨_, _, rfl, rfl, h.discard1 (by omega)⟩

theorem evalLoop (h : Twins s t) (now fuel : Nat) :
    Twins (Machine.evalLoop now fuel s) (Machine.evalLoop now fuel t) := by
  induction fuel generalizing s t with
  | zero => exact h
  | succ fuel ih =>
    rw [evalLoop_succ, evalLoop_succ]
    obtain ⟨hs, ht⟩ | ⟨s', t', hs, ht, h'⟩ := h.evalStep now
    · rw [hs, ht]
      exact h
    · rw [hs, ht]
      exact ih h'

theorem flush (h : Twins s t) (n : Nat) : Twins (Machine.flush n s) (Machine.flush n t) := by
  induction n generalizing s t with
  | zero => exact h
  | succ n ih =>
    rw [Machine.flush, Machine.flush, ← h.obs.rxLen]
    split
    · exact h
    next hpos => exact ih (h.discard1 (Nat.pos_of_ne_zero hpos))

theorem idleFlush (h : Twins s t) (now : Nat) : Twins (Machine.idleFlush now s) (Machine.idleFlush now t) := by
  unfold Machine.idleFlush
  rw [← h.obs.idleExpired, ← h.obs.rxLen]
  split
  · exact h.flush _
  · exact h

theorem overflowTest (h : Twins s t) (place : OverflowCheck) :
    Twins (Machine.overflowTest place s) (Machine.overflowTest place t) := by
  unfold Machine.overflowTest
  rw [← h.obs.cfg, ← h.obs.rxLen]
  split
  · exact ⟨h.obs.bulkReset, h.left, h.right⟩
  · exact h

/-- After the stamp both buffers have the same last time (R110). -/
theorem append (h : Twins s t) (b : Byte) (now : Nat) :
    Twins (Machine.append b (stampRx now s)) (Machine.append b (stampRx now t)) where
  obs := { h.obs with
    rxLen := congrArg (· + 1) h.obs.rxLen
    buffered := by
      rw [buffered_append b (stampRx now s) h.left, buffered_append b (stampRx now t) h.right]
      exact congrArg (· ++ [b]) h.obs.buffered
    lastRxTime := fun _ => rfl }
  left := Memory.wf_write _ _ _ h.left
  right := Memory.wf_write _ _ _ h.right

theorem assemble (h : Twins s t) (b : Byte) (now : Nat) : Twins (Machine.assemble b now s) (Machine.assemble b now t) := by
  have hreceived : Twins (received b now s) (received b now t) := (h.append b now).overflowTest _
  have heval := hreceived.evalLoop now (received b now s).rxLen
  rw [assemble_eq, assemble_eq, eval, eval, ← hreceived.obs.rxLen]
  exact heval.overflowTest _

end Twins

/-! The operations. -/

theorem obsEq_feed {s t : State} (h : Twins s t) (b : Byte) (now : Nat) :
    ObsEqOutcome (exec (.feed b now) s) (exec (.feed b now) t) := by
  change ObsEqOutcome (execFeed b now s) (execFeed b now t)
  unfold execFeed
  rw [← h.obs.passthrough, ← h.obs.cfg, ← h.obs.rxLen]
  split
  · exact h.obs.emit _
  · split
    · exact rfl
    · exact (h.assemble b now).obs

theorem obsEq_poll {s t : State} (h : Twins s t) (now : Nat) :
    ObsEqOutcome (exec (.poll now) s) (exec (.poll now) t) := by
  change ObsEqOutcome (execPoll now s) (execPoll now t)
  unfold execPoll
  rw [← h.obs.idleExpired, ← h.obs.cfg, ← h.obs.rxLen]
  split
  · exact rfl
  · exact (h.idleFlush now).obs.linkCheck now

theorem obsEq_send {s t : State} (h : ObsEq s t) (addr type : Byte) (p : List Byte) :
    ObsEqOutcome (exec (.send addr type p) s) (exec (.send addr type p) t) := by
  have hshut : sendShut p s = sendShut p t := by
    rw [sendShut, sendShut, linkGateShut, linkGateShut, h.cfg, h.passthrough, h.linkUp]
  rw [exec_send, exec_send, sendFrame_spec, sendFrame_spec, ← hshut]
  split
  · exact { h with accepted := rfl }
  · exact { h with tx := congrArg (· ++ buildFrame addr type p) h.tx, accepted := rfl }

/-- `RESET` (R240) makes every unspecified register unobservable: nothing buffered, the link Down, no record. -/
theorem obsEq_reset {s t : State} (hcfg : s.cfg = t.cfg) (hhost : s.host = t.host) (hevents : s.events = t.events)
    (htx : s.tx = t.tx) (hacc : s.accepted = t.accepted) : ObsEqOutcome (exec .reset s) (exec .reset t) :=
  show ObsEq _ _ from
  { cfg := hcfg, host := hhost, rxLen := rfl, buffered := rfl, lastRxTime := fun hpos => absurd hpos (Nat.lt_irrefl 0)
    linkUp := rfl, lastChTime := nofun, passthrough := rfl, chRaw := rfl, ls := rfl, gps := rfl, bat := rfl, att := rfl
    sens := rfl, events := hevents, tx := htx, accepted := hacc }

/-- Settles O49: operation by operation; `issue` empties the output ports of both states. -/
theorem unspecifiedRegistersUnobservable : Obligations.UnspecifiedRegistersUnobservable := by
  refine ⟨fun i s t hs ht h => ?step, fun s t hcfg hhost => obsEq_reset hcfg (congrArg List.tail hhost) rfl rfl rfl⟩
  case step =>
    cases hcmd : i.isCommand with
    | false =>
      rw [exec_frame i s hcmd, exec_frame i t hcmd]
      exact h.runFrame i
    | true =>
      cases i with
      | reset => exact obsEq_reset h.cfg h.host h.events h.tx h.accepted
      | feed b now => exact obsEq_feed ⟨h, hs, ht⟩ b now
      | poll now => exact obsEq_poll ⟨h, hs, ht⟩ now
      | send addr type p => exact obsEq_send h addr type p
      | ptSet v => exact show ObsEq _ _ from { h with passthrough := rfl }
      | _ => cases hcmd

end Sys2Proof.Machine
end

section
/-! The algebra of the CRC (R102, R104, R105): one shift of the register is linear and injective, and a shift that loses no bit
is a plain shift. -/

namespace Sys2Proof.Machine

/-! One shift (R100). -/

theorem crcShift_xor (a b : Byte) : crcShift (a ^^^ b) = crcShift a ^^^ crcShift b := by
  have hxor : (a ^^^ b) <<< 1 = (a <<< 1) ^^^ (b <<< 1) := BitVec.shiftLeft_xor_distrib ..
  rw [crcShift, crcShift, crcShift, BitVec.msb_xor, hxor]
  cases a.msb <;> cases b.msb
  · rfl
  · exact BitVec.xor_assoc ..
  · change a <<< 1 ^^^ b <<< 1 ^^^ crcPoly = a <<< 1 ^^^ crcPoly ^^^ b <<< 1
    rw [BitVec.xor_assoc, BitVec.xor_assoc, BitVec.xor_comm (b <<< 1)]
  · change a <<< 1 ^^^ b <<< 1 = a <<< 1 ^^^ crcPoly ^^^ (b <<< 1 ^^^ crcPoly)
    rw [BitVec.xor_comm (b <<< 1) crcPoly, BitVec.xor_assoc (a <<< 1) crcPoly, ← BitVec.xor_assoc crcPoly crcPoly,
      BitVec.xor_self, BitVec.zero_xor]

/-- The polynomial has bit 0, so a shift that reduces leaves that bit, and any other shift loses nothing. -/
theorem crcShift_eq_zero_iff (c : Byte) : crcShift c = 0 ↔ c = 0 := by
  constructor
  · intro h
    cases hmsb : c.msb with
    | true =>
      have hbit : (crcShift c).getLsbD 0 = true := by
        rw [crcShift, hmsb, if_pos rfl]
        simp [crcPoly]
      rw [h] at hbit
      cases hbit
    | false =>
      rw [crcShift, hmsb, if_neg Bool.false_ne_true] at h
      rw [BitVec.msb_eq_decide, decide_eq_false_iff_not] at hmsb
      have hval := congrArg BitVec.toNat h
      rw [BitVec.toNat_shiftLeft, Nat.shiftLeft_eq, Nat.mod_eq_of_lt (by omega)] at hval
      refine BitVec.eq_of_toNat_eq ?_
      change c.toNat * 2 = 0 at hval
      change c.toNat = 0
      omega
  · rintro rfl
    rfl

/-! Several shifts. -/

theorem crcRepeat_add (m n : Nat) (c : Byte) : crcRepeat (m + n) c = crcRepeat m (crcRepeat n c) := by
  rw [crcRepeat_eq_iterate, crcRepeat_eq_iterate, crcRepeat_eq_iterate, Function.iterate_add_apply]

theorem crcRepeat_xor (n : Nat) (a b : Byte) : crcRepeat n (a ^^^ b) = crcRepeat n a ^^^ crcRepeat n b := by
  induction n generalizing a b with
  | zero => rfl
  | succ n ih => rw [crcRepeat, crcShift_xor, ih]; rfl

theorem crcRepeat_eq_zero_iff (n : Nat) (c : Byte) : crcRepeat n c = 0 ↔ c = 0 := by
  induction n generalizing c with
  | zero => exact Iff.rfl
  | succ n ih => rw [crcRepeat, ih, crcShift_eq_zero_iff]

/-- As long as no bit leaves the register, the register is just shifted. -/
theorem crcRepeat_of_lt {n : Nat} {c : Byte} (h : c.toNat * 2 ^ n < 256) : crcRepeat n c = c <<< n := by
  induction n generalizing c with
  | zero => simp [crcRepeat]
  | succ n ih =>
    have hpow : c.toNat * 2 ^ (n + 1) = c.toNat * 2 * 2 ^ n := by ring
    have hdouble : c.toNat * 2 < 256 := (Nat.le_mul_of_pos_right _ (by positivity)).trans_lt (hpow ▸ h)
    have hmsb : c.msb = false := by
      rw [BitVec.msb_eq_decide, decide_eq_false_iff_not]
      omega
    have hshift : (c <<< 1).toNat = c.toNat * 2 := by
      rw [BitVec.toNat_shiftLeft, Nat.shiftLeft_eq, pow_one, Nat.mod_eq_of_lt hdouble]
    rw [crcRepeat, crcShift, hmsb, if_neg Bool.false_ne_true, ih (by rw [hshift, ← hpow]; exact h), Nat.add_comm n 1,
      BitVec.shiftLeft_add]

/-! Byte sequences (R101). -/

theorem crc8Upd_xor (a b c d : Byte) : crc8Upd (a ^^^ b) (c ^^^ d) = crc8Upd a c ^^^ crc8Upd b d := by
  have hswap : a ^^^ b ^^^ (c ^^^ d) = (a ^^^ c) ^^^ (b ^^^ d) := by
    rw [BitVec.xor_assoc, BitVec.xor_assoc, ← BitVec.xor_assoc b, BitVec.xor_comm b c, BitVec.xor_assoc c]
  rw [crc8Upd, hswap, crcRepeat_xor]
  rfl

theorem crc8Upd_eq_zero_iff (c b : Byte) : crc8Upd c b = 0 ↔ c = b := by
  rw [crc8Upd, crcRepeat_eq_zero_iff]
  exact BitVec.xor_eq_zero_iff

/-- R104: the receiver's comparison is a test for zero. -/
theorem crc8_append_eq_zero_iff (s : List Byte) (c : Byte) : crc8 (s ++ [c]) = 0 ↔ crc8 s = c := by
  rw [crc8_append, crc8Upd_eq_zero_iff]

theorem crc8_zeros_append (n : Nat) (s : List Byte) : crc8 (List.replicate n 0 ++ s) = crc8 s := by
  induction n with
  | zero => rfl
  | succ n ih => exact ih

/-- Settles O3: a residue is zero exactly at the CRC, and the register stays zero under zeros. -/
theorem crcResidueIsZero : Obligations.CrcResidueIsZero := by
  refine ⟨fun s => (crc8_append_eq_zero_iff s _).mpr rfl, fun s c => (crc8_append_eq_zero_iff s c).symm, fun n => ?_,
    crc8_zeros_append⟩
  have h := crc8_zeros_append n []
  rwa [List.append_nil] at h

/-- R105: the fold is linear because its step is. -/
theorem crc8_xor (s t : List Byte) (h : s.length = t.length) :
    crc8 (List.zipWith (fun x y => x ^^^ y) s t) = crc8 s ^^^ crc8 t := by
  have hfold (a b : Byte) : (List.zipWith (fun x y => x ^^^ y) s t).foldl crc8Upd (a ^^^ b) =
      s.foldl crc8Upd a ^^^ t.foldl crc8Upd b := by
    induction s generalizing t a b with
    | nil =>
      obtain rfl := List.eq_nil_of_length_eq_zero h.symm
      rfl
    | cons x s ih =>
      obtain ⟨y, t, rfl⟩ := List.exists_cons_of_length_eq_add_one h.symm
      rw [List.zipWith_cons_cons, List.foldl_cons, crc8Upd_xor, ih t (Nat.succ.inj h)]
      rfl
  exact hfold crcInit crcInit

theorem crc8_append_zeros_eq_zero_iff (s : List Byte) (n : Nat) :
    crc8 (s ++ List.replicate n 0) = 0 ↔ crc8 s = 0 := by
  induction n with
  | zero => rw [List.replicate_zero, List.append_nil]
  | succ n ih => rw [List.replicate_succ', ← List.append_assoc, crc8_append_eq_zero_iff, ih]

/-- What is left of a byte without its bits from `j` on. -/
theorem toNat_low_lt (v : Byte) (j : Nat) : (v ^^^ v >>> j <<< j).toNat < 2 ^ j := by
  refine Nat.lt_pow_two_of_testBit _ fun i hi => ?_
  rw [BitVec.testBit_toNat, BitVec.getLsbD_xor, BitVec.getLsbD_shiftLeft, BitVec.getLsbD_ushiftRight, Nat.add_sub_cancel' hi]
  by_cases hlt : i < 8
  · simp [hlt, Nat.not_lt.mpr hi]
  · rw [BitVec.getLsbD_of_ge v i (by omega)]
    simp [hlt]

/-- `8 - j` shifts of a byte: its low `j` bits are only moved; its bits from `j` on, taken down to bit 0, go through eight. -/
theorem crcRepeat_sub {j : Nat} (v : Byte) (hj : j ≤ 8) :
    crcRepeat (8 - j) v = crcRepeat 8 (v >>> j) ^^^ v <<< (8 - j) := by
  have hpow : 2 ^ j * 2 ^ (8 - j) = 256 := by
    rw [← pow_add, Nat.add_sub_cancel' hj]
    rfl
  have hhigh : crcRepeat j (v >>> j) = v >>> j <<< j := by
    refine crcRepeat_of_lt ?_
    rw [BitVec.toNat_ushiftRight, Nat.shiftRight_eq_div_pow]
    exact (Nat.div_mul_le_self _ _).trans_lt v.isLt
  have hlow : crcRepeat (8 - j) (v ^^^ v >>> j <<< j) = v <<< (8 - j) := by
    have hfits := (Nat.mul_lt_mul_of_pos_right (toNat_low_lt v j) (by positivity)).trans_eq hpow
    rw [crcRepeat_of_lt hfits, BitVec.shiftLeft_xor_distrib, ← BitVec.shiftLeft_add, Nat.add_sub_cancel' hj]
    simp
  have hsplit : v = v >>> j <<< j ^^^ (v ^^^ v >>> j <<< j) := by
    rw [BitVec.xor_comm v, ← BitVec.xor_assoc, BitVec.xor_self, BitVec.zero_xor]
  calc crcRepeat (8 - j) v
      = crcRepeat (8 - j) (crcRepeat j (v >>> j)) ^^^ crcRepeat (8 - j) (v ^^^ v >>> j <<< j) := by
        rw [hhigh, ← crcRepeat_xor, ← hsplit]
    _ = crcRepeat 8 (v >>> j) ^^^ v <<< (8 - j) := by rw [hlow, ← crcRepeat_add, Nat.sub_add_cancel hj]

/-- A byte split over two bytes of a message is still one byte to the register. -/
theorem crc8_burst {j : Nat} (v : Byte) (hj : j ≤ 8) : crc8 [v >>> j, v <<< (8 - j)] = crcRepeat 8 (crcRepeat (8 - j) v) := by
  have hfirst : crc8 [v >>> j] = crcRepeat 8 (v >>> j) := congrArg (crcRepeat 8) BitVec.zero_xor
  rw [crcRepeat_sub v hj, ← hfirst]
  rfl

/-- Settles O4: by linearity only the burst counts, and a burst within a byte's width leaves a nonzero register. -/
theorem crcLinearDetectsBursts : Obligations.CrcLinearDetectsBursts := by
  refine ⟨crc8_xor, fun s k j m v hj hv hlen hzero => hv ?_⟩
  have hlength : (s ++ [crc8 s]).length =
      (List.replicate k 0 ++ [v >>> j, v <<< (8 - j)] ++ List.replicate m (0 : Byte)).length := by
    simp only [List.length_append, List.length_cons, List.length_nil, List.length_replicate]
    omega
  rw [crc8_xor _ _ hlength, (crc8_append_eq_zero_iff s _).mpr rfl] at hzero
  have hburst := BitVec.zero_xor.symm.trans hzero
  rwa [crc8_append_zeros_eq_zero_iff, crc8_zeros_append, crc8_burst v hj, crcRepeat_eq_zero_iff,
    crcRepeat_eq_zero_iff] at hburst

/-! The table (R102). -/

/-- The printed table, evaluated entry by entry. -/
theorem crcTable_eq_map : crcTable = (List.range 256).map (fun i => crc8Upd 0 (BitVec.ofNat 8 i)) := by decide +kernel

theorem getElem?_crcTable (i : Byte) : crcTable[i.toNat]? = some (crc8Upd 0 i) := by
  rw [crcTable_eq_map, List.getElem?_map, List.getElem?_range i.isLt, Option.map_some, BitVec.ofNat_toNat,
    BitVec.setWidth_eq]

/-- Settles O2: the update reads its two arguments by their XOR only, so the row for accumulator 0 serves all. -/
theorem crcTableIsBitwise : Obligations.CrcTableIsBitwise := by
  refine ⟨by rw [crcTable_eq_map, List.length_map, List.length_range], getElem?_crcTable, fun c b => ?_⟩
  rw [crc8UpdByTable, List.getD_eq_getElem?_getD, getElem?_crcTable, Option.getD_some]
  exact congrArg (crcRepeat 8) BitVec.zero_xor

end Sys2Proof.Machine
end

section
/-! One round trip of the unit transforms (R146). -/

namespace Sys2Proof.Machine

/-- Settles O12: both laws are about the two truncating divisions. -/
theorem transformRoundTripLoss : Obligations.TransformRoundTripLoss := by
  refine ⟨fun r => ?decodeEncode, fun u hlo hhi => ?encodeDecode⟩
  case decodeEncode =>
    obtain ⟨hlo, hhi⟩ := raw2us_bounds r
    obtain ⟨q, hq, hval, -⟩ := exists_us2raw_eq_some hlo hhi
    rw [raw2us] at hval
    exact ⟨q, hq, by omega, by omega, by rw [← BitVec.toNat_inj]; omega⟩
  case encodeDecode =>
    obtain ⟨q, hq, hval, -⟩ := exists_us2raw_eq_some hlo hhi
    have hback : raw2us q = q.toNat * 5 / 8 + 880 := rfl
    exact ⟨q, hq, by omega, by omega, by omega⟩

end Sys2Proof.Machine
end

section
/-! The link timer (R185, R188): elapsed time across a wrap, and a link that only `POLL`s can drop. -/

namespace Sys2Proof.Machine

/-- The difference of two times less than a wrap apart is right, also where `now` has wrapped (R185). -/
theorem elapsed_add_mod (c : Config) {a d : Nat} (hd : d < 2 ^ c.timeW) : elapsed c ((a + d) % 2 ^ c.timeW) a = d := by
  have hcast := cast_elapsed c ((a + d) % 2 ^ c.timeW) a
  have hd' : (d : Int) < 2 ^ c.timeW := by exact_mod_cast hd
  push_cast at hcast
  rw [Int.emod_sub_emod, add_sub_cancel_left, Int.emod_eq_of_lt (by omega) hd'] at hcast
  exact_mod_cast hcast

/-- A time before the timestamp reads as one nearly a wrap later (R185). -/
theorem elapsed_of_before (c : Config) {a d : Nat} (hpos : 0 < d) (hd : d < 2 ^ c.timeW) :
    elapsed c a (a + d) = 2 ^ c.timeW - d := by
  have hback : (a + d + (2 ^ c.timeW - d)) % 2 ^ c.timeW = a % 2 ^ c.timeW := by
    rw [Nat.add_assoc, Nat.add_sub_cancel' hd.le, Nat.add_mod_right]
  have hsame : elapsed c a (a + d) = elapsed c (a % 2 ^ c.timeW) (a + d) := by
    unfold elapsed
    push_cast
    rw [Int.emod_sub_emod]
  rw [hsame, ← hback, elapsed_add_mod c (by omega)]

/-- Settles O46: one wrap forward, and a time before the timestamp. -/
theorem elapsedAcrossWrap : Obligations.ElapsedAcrossWrap :=
  fun c _ _ hd => ⟨elapsed_add_mod c hd, fun hpos => elapsed_of_before c hpos hd⟩

/-- Without a wrap the elapsed time is the difference. -/
theorem elapsed_of_le (c : Config) {a u : Nat} (hau : a ≤ u) (hu : u < 2 ^ c.timeW) : elapsed c u a = u - a := by
  have h := elapsed_add_mod c (a := a) (d := u - a) (by omega)
  rwa [Nat.add_sub_cancel' hau, Nat.mod_eq_of_lt hu] at h

/-- A `POLL` on an empty buffer is its link check (R121, R183). -/
theorem exec_poll_of_empty (now : Nat) {s : State} (hempty : s.rxLen = 0) :
    exec (.poll now) s = .next (linkCheck now s) := by
  have hidle : ¬ idleExpired now s = true := by
    rw [idleExpired_iff, hempty]
    exact fun h => absurd h.1 (Nat.lt_irrefl 0)
  rw [exec_poll_completes now (by omega), idleFlush, if_neg hidle]

theorem linkExpired_of_le {now : Nat} {s : State} (hup : s.linkUp = true) (hle : s.lastChTime ≤ now)
    (hnow : now < 2 ^ s.cfg.timeW) : linkExpired now s = true ↔ s.lastChTime + s.cfg.linkTimeout < now := by
  rw [linkExpired, hup, Bool.true_and, decide_eq_true_iff, elapsed_of_le s.cfg hle hnow]
  omega

/-- The first poll after the threshold drops the link, those before it do nothing; `a` is the time of the poll before, or of
the heartbeat. -/
theorem exists_dropping_poll {s : State} {p a : Nat} {polls : List Nat} (hup : s.linkUp = true) (hempty : s.rxLen = 0)
    (hafter : s.lastChTime ≤ a) (hbefore : a ≤ s.lastChTime + s.cfg.linkTimeout)
    (hchain : List.IsChain (fun a b => a ≤ b ∧ b ≤ a + p) (a :: polls)) (hrange : ∀ u ∈ polls, u < 2 ^ s.cfg.timeW)
    (hlate : ∃ u ∈ polls, s.lastChTime + s.cfg.linkTimeout < u) :
    ∃ (before : List Nat) (u : Nat) (after : List Nat), polls = before ++ u :: after ∧
      s.lastChTime + s.cfg.linkTimeout < u ∧ u ≤ s.lastChTime + s.cfg.linkTimeout + p ∧
      runOps (before.map Instr.poll) s = .next s ∧
      exec (.poll u) s = .next { s with linkUp := false, events := s.events ++ [Event.linkDown] } := by
  induction polls generalizing a with
  | nil =>
    obtain ⟨u, hu, -⟩ := hlate
    cases hu
  | cons u polls ih =>
    rw [List.isChain_cons_cons] at hchain
    obtain ⟨⟨hau, huap⟩, hrest⟩ := hchain
    have hexpired := linkExpired_of_le hup (hafter.trans hau) (hrange u List.mem_cons_self)
    by_cases hthreshold : s.lastChTime + s.cfg.linkTimeout < u
    · refine ⟨[], u, polls, rfl, hthreshold, by omega, rfl, ?_⟩
      rw [exec_poll_of_empty u hempty, linkCheck_spec, if_pos (hexpired.mpr hthreshold)]
    · have hstay : exec (.poll u) s = .next s := by
        rw [exec_poll_of_empty u hempty, linkCheck_spec, if_neg (hthreshold ∘ hexpired.mp)]
      have hlater : ∃ v ∈ polls, s.lastChTime + s.cfg.linkTimeout < v := by
        obtain ⟨v, hv, hvlate⟩ := hlate
        rcases List.mem_cons.mp hv with rfl | hmem
        · exact absurd hvlate hthreshold
        · exact ⟨v, hmem, hvlate⟩
      obtain ⟨before, v, after, rfl, hlo, hhi, hrun, hdown⟩ :=
        ih (hafter.trans hau) (by omega) hrest (fun w hw => hrange w (List.mem_cons_of_mem _ hw)) hlater
      exact ⟨u :: before, v, after, rfl, hlo, hhi, (runOps_cons hstay).trans hrun, hdown⟩

/-- Settles O47: the polls from the heartbeat on. -/
theorem linkDownLatency : Obligations.LinkDownLatency :=
  fun _ _ _ hup hempty hchain hrange hlate =>
    exists_dropping_poll hup hempty le_rfl (Nat.le_add_right _ _) hchain hrange hlate

end Sys2Proof.Machine
end
